-- ==== Sys2Proof/Word.lean ====
section
/-! DEFINITION. The word types of the block: the widths 00_scope.md R8 and 20_memory.md R56 fix. -/

namespace Sys2Proof

/-- One byte on the wire or in a byte buffer (R8: address, command, category, index, page and count
are each one byte; R56: the byte buffers hold 8 bits per element). -/
abbrev Byte := BitVec 8

/-- One protocol register, "an unsigned 16-bit integer" (R8). A CRC value has the same width. -/
abbrev Reg := BitVec 16

/-- The command word `CMD` (R24: 48 bits). -/
abbrev CmdWord := BitVec 48

/-- The width of `STATUS` and `RESULT` (R56: 32 bits). -/
abbrev Word32 := BitVec 32

end Sys2Proof
end

