-- ==== Sys2Proof/Syntax.lean ====
section
/-! DEFINITION. The syntax: the fourteen commands of 30_encoding.md R80 (one constructor per row of
spec/opcode_table.json) and the host's actions of 10_state.md R37. -/

namespace Sys2Proof

/-- A command of the block (30_encoding.md R80), holding exactly the `CMD` fields its row reads (R81: each is a raw,
unsigned byte). -/
inductive Instr where
  /-- `CRC_INIT`, 40_crc.md R110. -/
  | crcInit
  /-- `CRC_FEED`, R111; `n` is the data byte. -/
  | crcFeed (n : Byte)
  /-- `CRC_FEED_BUF`, R112. -/
  | crcFeedBuf
  /-- `CRC_READ`, R113. -/
  | crcRead
  /-- `CRC_BLOCK`, R114. -/
  | crcBlock
  /-- `CRC_VERIFY`, R115. -/
  | crcVerify
  /-- `TABLE_READ`, R116; `n` is the table index. -/
  | tableRead (n : Byte)
  /-- `CLEAR`, 43_control.md R213. -/
  | clear
  /-- `PACK`, 41_register_codec.md R143. -/
  | pack
  /-- `UNPACK`, R144. -/
  | unpack
  /-- `BUILD_READ`, 42_frame_codec.md R165: address, category, index, page and the number of registers requested. -/
  | buildRead (a c i p n : Byte)
  /-- `BUILD_WRITE`, R168: address, category, index and page; the count comes from `IN_REGS` (R81). -/
  | buildWrite (a c i p : Byte)
  /-- `PARSE_READ`, R175. -/
  | parseRead
  /-- `PARSE_WRITE`, R182. -/
  | parseWrite
  deriving DecidableEq, Repr

/-- The registers and buffers a host can read (10_state.md R37, the row `read X`). -/
inductive HostReg where
  | cmd
  | status
  | result
  | inBytes
  | inRegs
  | outBytes
  | outRegs
  | diagExpected
  | diagActual
  deriving DecidableEq, Repr

/-- What the host can do, each one atomic step of the host agent (10_state.md R37). -/
inductive HostAction where
  /-- `write IN_BYTES s`: replaces the whole sequence. -/
  | writeBytes (s : List Byte)
  /-- `write IN_REGS s`: replaces the whole sequence. -/
  | writeRegs (s : List Reg)
  /-- `write CMD w`: runs one command (43_control.md R210). -/
  | writeCmd (w : CmdWord)
  /-- `read X`. -/
  | read (x : HostReg)
  /-- `reset`: every state of the block to its R36 value. -/
  | reset
  deriving DecidableEq, Repr

/-- What one `read X` returned: the register read and its value (R37). -/
inductive Reading where
  | cmd (v : CmdWord)
  | status (v : Word32)
  | result (v : Word32)
  | inBytes (v : List Byte)
  | inRegs (v : List Reg)
  | outBytes (v : List Byte)
  | outRegs (v : List Reg)
  | diagExpected (v : List Byte)
  | diagActual (v : List Byte)
  deriving DecidableEq, Repr

end Sys2Proof
end

