-- ==== Sys2Proof/Decode.lean ====
section
/-! DEFINITION. Decoding and encoding the command word `CMD` (10_state.md R24, 30_encoding.md R80 to R84). The block
fetches no bytes from a memory (20_memory.md R63): its whole instruction is the 48-bit word the host writes. -/

namespace Sys2Proof

/-- `OP = CMD[7:0]` (R24). -/
def cmdOp (w : CmdWord) : Byte := w.extractLsb' 0 8

/-- `A = CMD[15:8]` (R24). -/
def cmdA (w : CmdWord) : Byte := w.extractLsb' 8 8

/-- `C = CMD[23:16]` (R24). -/
def cmdC (w : CmdWord) : Byte := w.extractLsb' 16 8

/-- `I = CMD[31:24]` (R24). -/
def cmdI (w : CmdWord) : Byte := w.extractLsb' 24 8

/-- `P = CMD[39:32]` (R24). -/
def cmdP (w : CmdWord) : Byte := w.extractLsb' 32 8

/-- `N = CMD[47:40]` (R24). -/
def cmdN (w : CmdWord) : Byte := w.extractLsb' 40 8

/-- Why a command word stands for no command. -/
inductive DecodeError where
  /-- `OP` is one of the 242 values outside the opcode map (R82). -/
  | illegalOp (op : Byte)
  deriving DecidableEq, Repr

/-- The opcode map of 30_encoding.md R80, on every word: a command ignores each field its row does not name, and an
`OP` outside the map is rejected by name (R82). -/
def decode (w : CmdWord) : Except DecodeError Instr :=
  match (cmdOp w).toNat with
  | 0x01 => .ok .crcInit
  | 0x02 => .ok (.crcFeed (cmdN w))
  | 0x03 => .ok .crcFeedBuf
  | 0x04 => .ok .crcRead
  | 0x05 => .ok .crcBlock
  | 0x06 => .ok .crcVerify
  | 0x07 => .ok (.tableRead (cmdN w))
  | 0x0F => .ok .clear
  | 0x10 => .ok .pack
  | 0x11 => .ok .unpack
  | 0x20 => .ok (.buildRead (cmdA w) (cmdC w) (cmdI w) (cmdP w) (cmdN w))
  | 0x21 => .ok (.buildWrite (cmdA w) (cmdC w) (cmdI w) (cmdP w))
  | 0x30 => .ok .parseRead
  | 0x31 => .ok .parseWrite
  | _ => .error (.illegalOp (cmdOp w))

/-- The word of its six fields: `N<<40 | P<<32 | I<<24 | C<<16 | A<<8 | OP` (R84). -/
def cmdWord (op a c i p n : Byte) : CmdWord :=
  n.setWidth 48 <<< 40 ||| p.setWidth 48 <<< 32 ||| i.setWidth 48 <<< 24 ||| c.setWidth 48 <<< 16 |||
    a.setWidth 48 <<< 8 ||| op.setWidth 48

/-- The opcode of each command (the `OP` column of R80). -/
def opcode : Instr → Byte
  | .crcInit => 0x01
  | .crcFeed _ => 0x02
  | .crcFeedBuf => 0x03
  | .crcRead => 0x04
  | .crcBlock => 0x05
  | .crcVerify => 0x06
  | .tableRead _ => 0x07
  | .clear => 0x0F
  | .pack => 0x10
  | .unpack => 0x11
  | .buildRead _ _ _ _ _ => 0x20
  | .buildWrite _ _ _ _ => 0x21
  | .parseRead => 0x30
  | .parseWrite => 0x31

/-- The word of a command, with 0 in each field its row does not name (R84: "fields not named being 0"). -/
def encode : Instr → CmdWord
  | .crcInit => cmdWord 0x01 0 0 0 0 0
  | .crcFeed n => cmdWord 0x02 0 0 0 0 n
  | .crcFeedBuf => cmdWord 0x03 0 0 0 0 0
  | .crcRead => cmdWord 0x04 0 0 0 0 0
  | .crcBlock => cmdWord 0x05 0 0 0 0 0
  | .crcVerify => cmdWord 0x06 0 0 0 0 0
  | .tableRead n => cmdWord 0x07 0 0 0 0 n
  | .clear => cmdWord 0x0F 0 0 0 0 0
  | .pack => cmdWord 0x10 0 0 0 0 0
  | .unpack => cmdWord 0x11 0 0 0 0 0
  | .buildRead a c i p n => cmdWord 0x20 a c i p n
  | .buildWrite a c i p => cmdWord 0x21 a c i p 0
  | .parseRead => cmdWord 0x30 0 0 0 0 0
  | .parseWrite => cmdWord 0x31 0 0 0 0 0

/-- The bits of `CMD` that a command's row names: `OP` and the fields read (the bits that are not `x` in
spec/opcode_table.json). -/
def readMask : Instr → CmdWord
  | .crcInit => 0x0000000000FF
  | .crcFeed _ => 0xFF00000000FF
  | .crcFeedBuf => 0x0000000000FF
  | .crcRead => 0x0000000000FF
  | .crcBlock => 0x0000000000FF
  | .crcVerify => 0x0000000000FF
  | .tableRead _ => 0xFF00000000FF
  | .clear => 0x0000000000FF
  | .pack => 0x0000000000FF
  | .unpack => 0x0000000000FF
  | .buildRead _ _ _ _ _ => 0xFFFFFFFFFFFF
  | .buildWrite _ _ _ _ => 0x00FFFFFFFFFF
  | .parseRead => 0x0000000000FF
  | .parseWrite => 0x0000000000FF

/-- The command word whose low `nbits` bits are those of `w` and whose other bits are 0. -/
def tableWord (nbits w : Nat) : CmdWord := BitVec.ofNat 48 (w % 2 ^ nbits)

/-- The command the decoder reads from an opcode-table word. -/
def decodeTableWord (nbits w : Nat) : Option Instr :=
  match decode (tableWord nbits w) with
  | .ok i => some i
  | .error _ => none

end Sys2Proof
end

