-- ==== Sys2Proof/Config.lean ====
section
/-! DEFINITION. The parameters of the block (00_scope.md R7, 10_state.md R35): fixed for one machine, changed by no
command. `BUS_BINDING` and `STOP_BITS` are no constants here: R7 leaves them outside the model. -/

namespace Sys2Proof.Config

/-- `READ_CRC_CHECK` (R7, R173, D5): whether `PARSE_READ` re-checks the CRC of a response. The spec leaves it OPEN, so
it has no body: whatever is proved holds for both values. (Log entry 1.) -/
opaque readCrcCheck : Bool

/-- `REG_BUF_CAP` (R7, R27, D4): the capacity of the register buffers, at the spec's default. (Log entry 2.) -/
def regBufCap : Nat := 512

/-- `BYTE_BUF_CAP` (R7, R27): the capacity of the byte buffers, twice the register capacity. -/
def byteBufCap : Nat := 2 * regBufCap

/-- `MAX_WRITE_COUNT` (R7, R167, D6): the most registers one write request may carry. -/
def maxWriteCount : Nat := 127

/-- `MAX_READ_COUNT` (R7, R163, D7): the most registers one read request may ask for, the range of its 8-bit field.
R163 needs no check against it. -/
def maxReadCount : Nat := 255

end Sys2Proof.Config
end

