-- ==== Sys2Proof/Machine/State.lean ====
section
/-! DEFINITION. The state of the block (10_state.md R21, R31, R36), the reasons an error is reported for
(60_exceptions.md R220, R221) and the reasons a step can stop. -/

namespace Sys2Proof.Machine

/-- The error classes (60_exceptions.md R220); `CLASS = 0`, OK, is no error and no member. -/
inductive ErrorClass where
  | validation
  | transport
  | protocol
  | framing
  | integrity
  deriving DecidableEq, Repr

/-- The reasons an error is raised for, one per row of the table of 60_exceptions.md R221. -/
inductive Reason where
  /-- The opcode is not in the map (43_control.md R212). -/
  | illegalOp
  /-- A read length of 0, or a write of no registers (42_frame_codec.md R163, R166). -/
  | countZero
  /-- A write of more than 127 registers (R167). -/
  | countRange
  /-- A category above 7 (R163, R166). -/
  | categoryRange
  /-- `UNPACK` of an odd number of bytes (41_register_codec.md R142). -/
  | oddLength
  /-- No open transaction of the parser's kind (R183). -/
  | noContext
  /-- `CRC_VERIFY` of fewer than 2 bytes (40_crc.md R115). -/
  | shortInput
  /-- A response of fewer than 3 bytes (R170, R177). -/
  | shortResponse
  /-- Response byte 1 is not the request's wire command (R171, R178). -/
  | echoMismatch
  /-- The read data is not `2 × count` bytes long (R172). -/
  | readDataLength
  /-- The declared length of a write response is not the echoed one (R179). -/
  | writeDeclaredLength
  /-- The trailing CRC differs from the recomputed one (R115, R173, R180). -/
  | crcMismatch
  /-- The echoed payload differs from the payload sent (R181). -/
  | payloadMismatch
  deriving DecidableEq, Repr

/-- The kind of a transaction: the wire command of its request (R31). -/
inductive TxKind where
  | read
  | write
  deriving DecidableEq, Repr

/-- The transaction context `CTX` (10_state.md R31). -/
structure Ctx where
  /-- A request frame has been built and its response not yet parsed. -/
  valid : Bool
  /-- The wire command of that request. -/
  kind : TxKind
  /-- Registers requested (read) or supplied (write). -/
  count : Byte
  /-- The packed payload that was sent; `[]` for a read. -/
  payload : List Byte
  deriving DecidableEq, Repr

/-- The fields of `STATUS` that commands write (10_state.md R25). Bits 4:3 are a live view of `CTX` and bits 7:5 always
read 0, so neither is stored: `statusWord` (Flags.lean) gives the 32-bit word. (Log entry 7.) -/
structure Status where
  /-- `STATUS[2:0]`, the outcome class of the last command. -/
  cls : BitVec 3
  /-- `STATUS[15:8]`, which check failed. -/
  reason : Byte
  /-- `STATUS[23:16]`, byte 2 of the response on a ProtocolError. -/
  errCode : Byte
  /-- `STATUS[31:24]`, byte 1 of the response on a ProtocolError. -/
  errEcho : Byte
  deriving DecidableEq, Repr

/-- The state: every piece the table of 10_state.md R21 names but the constant `TABLE` (R33, R35; `crcTable`), and the
host agent's side of the interface (R20, R37, R260). -/
structure State where
  /-- `CMD`: the last command word written (R24). -/
  cmd : CmdWord
  /-- `STATUS`: the fields commands write (R25). -/
  status : Status
  /-- `RESULT`: `RESULT_HI` in bits 31:16, `RESULT_LO` in bits 15:0 (R26). -/
  result : Word32
  /-- `IN_BYTES` (R27, R28). -/
  inBytes : List Byte
  /-- `IN_REGS` (R27, R28). -/
  inRegs : List Reg
  /-- `OUT_BYTES` (R27, R29). -/
  outBytes : List Byte
  /-- `OUT_REGS` (R27, R29). -/
  outRegs : List Reg
  /-- `DIAG_EXPECTED` (R30). -/
  diagExpected : List Byte
  /-- `DIAG_ACTUAL` (R30). -/
  diagActual : List Byte
  /-- `CTX` (R31). -/
  ctx : Ctx
  /-- `ACC`, the incremental CRC accumulator (R32). -/
  acc : Reg
  /-- The host agent: the actions it has issued and that have not taken effect yet, oldest first (R60, R260). The
  model's own field, log entry 3. -/
  pending : List HostAction
  /-- The host agent: what its `read` actions have returned, oldest first (R37, R260). The model's own field, log
  entry 4. -/
  reads : List Reading
  deriving DecidableEq, Repr

/-- The reset values of 10_state.md R36; the host has issued nothing and read nothing. -/
def State.reset : State where
  cmd := 0
  status := ⟨0, 0, 0, 0⟩
  result := 0
  inBytes := []
  inRegs := []
  outBytes := []
  outRegs := []
  diagExpected := []
  diagActual := []
  ctx := ⟨false, .read, 0, []⟩
  acc := 0xFFFF
  pending := []
  reads := []

/-- The reasons a step stops with a fault: none. Every error the spec names is a report in `STATUS` after which the
block goes on (60_exceptions.md R227), every command ends (43_control.md R210), and a run cannot hang
(70_reset_and_hazards.md R260). -/
inductive Fault where
  deriving DecidableEq, Repr

/-- The reasons a step is refused. -/
inductive Refusal where
  /-- A command without a meaning in `exec`. No arm of the dispatch answers it: all fourteen commands have their meaning.
  Safe. -/
  | notModelled (mnemonic : String)
  /-- Raised by a host write of more than `BYTE_BUF_CAP` bytes to `IN_BYTES`: "It has no effect, and the model gives it
  no step" (10_state.md R27). Safe: nothing is claimed of what follows. -/
  | inBytesOverCapacity (length : Nat)
  /-- Raised by a host write of more than `REG_BUF_CAP` registers to `IN_REGS` (R27). Safe, likewise. -/
  | inRegsOverCapacity (length : Nat)
  deriving DecidableEq, Repr

/-- The answer of a command or a step. -/
abbrev Answer := Host.Outcome State Fault Refusal

end Sys2Proof.Machine
end

