-- ==== Sys2Proof/Machine/Flags.lean ====
section
/-! DEFINITION. The codes of the error report and the `STATUS` word (60_exceptions.md R220, R221, R225; 10_state.md
R25). -/

namespace Sys2Proof.Machine

/-- The `CLASS` code of an error class (R220). -/
def ErrorClass.code : ErrorClass → BitVec 3
  | .validation => 1
  | .transport => 2
  | .protocol => 3
  | .framing => 4
  | .integrity => 5

/-- The class a reason belongs to (R221, the `CLASS` column). -/
def Reason.cls : Reason → ErrorClass
  | .illegalOp => .validation
  | .countZero => .validation
  | .countRange => .validation
  | .categoryRange => .validation
  | .oddLength => .validation
  | .noContext => .validation
  | .shortInput => .validation
  | .shortResponse => .transport
  | .echoMismatch => .protocol
  | .readDataLength => .framing
  | .writeDeclaredLength => .framing
  | .crcMismatch => .integrity
  | .payloadMismatch => .integrity

/-- The `REASON` code of a reason, within its class (R221, the `REASON` column). -/
def Reason.code : Reason → Byte
  | .illegalOp => 1
  | .countZero => 2
  | .countRange => 3
  | .categoryRange => 4
  | .oddLength => 5
  | .noContext => 6
  | .shortInput => 7
  | .shortResponse => 1
  | .echoMismatch => 1
  | .readDataLength => 1
  | .writeDeclaredLength => 2
  | .crcMismatch => 1
  | .payloadMismatch => 2

/-- `STATUS` bit 3, the live value of `CTX.valid` (R25). -/
def ctxValidBit (c : Ctx) : BitVec 1 := if c.valid then 1 else 0

/-- `STATUS` bit 4: `CTX.kind` (Write is 1) while `CTX.valid`, else 0 (R25). -/
def ctxKindBit (c : Ctx) : BitVec 1 := if c.valid && c.kind == .write then 1 else 0

/-- The 32-bit `STATUS` word a host reads (R225: `ERR_ECHO << 24 | ERR_CODE << 16 | REASON << 8 | CTX_KIND << 4 |
CTX_VALID << 3 | CLASS`). -/
def statusWord (s : State) : Word32 :=
  (s.status.errEcho.setWidth 32 <<< 24) ||| (s.status.errCode.setWidth 32 <<< 16) |||
  (s.status.reason.setWidth 32 <<< 8) ||| ((ctxKindBit s.ctx).setWidth 32 <<< 4) |||
  ((ctxValidBit s.ctx).setWidth 32 <<< 3) ||| s.status.cls.setWidth 32

end Sys2Proof.Machine
end

