-- ==== Sys2Proof/Machine/Operands.lean ====
section
/-! DEFINITION. The datapath functions on bytes and registers: byte order, slices, the register codec, the CRC, and the
request frames. Each is a pure function, as the source has them (40_crc.md R108). -/

namespace Sys2Proof.Machine

/-! ## Sequences -/

/-- `slice(s, a, n)`: the `n` elements from `s[a]` on (00_scope.md R10). Every use is where R10 defines it
(log entry 13). -/
def slice (s : List Byte) (a n : Nat) : List Byte := (s.drop a).take n

/-- `s[k]` (R10), used only where `k < len(s)` (log entry 13). -/
def byteAt (s : List Byte) (k : Nat) : Byte := s.getD k 0

/-- A length as it stands in a half of `RESULT` (log entry 10). -/
def len16 (n : Nat) : Reg := BitVec.ofNat 16 n

/-! ## The register codec -/

/-- `v[15:8]`, the byte a register sends first (20_memory.md R51). -/
def highByte (v : Reg) : Byte := v.extractLsb' 8 8

/-- `v[7:0]` (R51). -/
def lowByte (v : Reg) : Byte := v.extractLsb' 0 8

/-- `(zext_16(hi) << 8) | zext_16(lo)`: the 16-bit value of a high and a low byte (41_register_codec.md R141,
40_crc.md R105). -/
def joinBytes (hi lo : Byte) : Reg := (hi.setWidth 16 <<< 8) ||| lo.setWidth 16

/-- `pack`: "emits each register as two bytes, MSB then LSB, concatenated in order" (41_register_codec.md R140). -/
def pack : List Reg → List Byte
  | [] => []
  | r :: rs => highByte r :: lowByte r :: pack rs

/-- `unpack` (R141), defined where the length is even. A last odd byte has no register; `UNPACK` raises before this
function is asked (R142, R144) and the frame codec never gives it one (R174; log entry 12). -/
def unpack : List Byte → List Reg
  | hi :: lo :: rest => joinBytes hi lo :: unpack rest
  | [_] => []
  | [] => []

/-! ## The CRC -/

/-- The seed of the CRC, `0xFFFF` (40_crc.md R100). -/
def crcSeed : Reg := 0xFFFF

/-- `crc_step(acc, b)` (R102): "XOR the byte into the low 8 bits of the accumulator, right-shift the accumulator by 8,
XOR in `table[index]`". -/
def crcStep (acc : Reg) (b : Byte) : Reg :=
  let t := acc ^^^ b.setWidth 16
  (t >>> 8) ^^^ tableAt (lowByte t)

/-- The accumulator after every byte of a sequence, in order (R103, R112). -/
def crcFold (acc : Reg) (s : List Byte) : Reg := s.foldl crcStep acc

/-- `crc16(s)` (R103). -/
def crc16 (s : List Byte) : Reg := crcFold crcSeed s

/-- `crc_bytes(c)`: a CRC goes low byte first (R105, 20_memory.md R52). -/
def crcBytes (c : Reg) : List Byte := [lowByte c, highByte c]

/-- `crc_of_bytes(lo, hi)` (R105). -/
def crcOfBytes (lo hi : Byte) : Reg := joinBytes hi lo

/-- The CRC recomputed over a frame without its two trailing bytes (R106). -/
def computedCrc (f : List Byte) : Reg := crc16 (slice f 0 (f.length - 2))

/-- The CRC the two trailing bytes of a frame carry (R106). -/
def receivedCrc (f : List Byte) : Reg := crcOfBytes (byteAt f (f.length - 2)) (byteAt f (f.length - 1))

/-- `crc_ok(f)` (R106), asked only of frames of at least 2 bytes. -/
def crcOk (f : List Byte) : Bool := computedCrc f == receivedCrc f

/-! ## Frames -/

/-- `CMD_READ`, the wire command byte of a read (42_frame_codec.md R160). -/
def wireRead : Byte := 0x43

/-- `CMD_WRITE`, the wire command byte of a write (R160). -/
def wireWrite : Byte := 0x44

/-- A category the wire allows, 0..7: Main, Elements, PackedData, Channels, Relays, Clock, Schedules, Info
(30_encoding.md R75). -/
def categoryLegal (c : Byte) : Bool := decide (c.toNat ≤ 7)

/-- A frame is its bytes and then "the CRC of everything preceding it" (R161, R162). -/
def withCrc (h : List Byte) : List Byte := h ++ crcBytes (crc16 h)

/-- The header and payload of a read request (R161, 30_encoding.md R71). -/
def readHeader (a c i p n : Byte) : List Byte := [a, wireRead, c, i, p, n]

/-- The header and payload of a write request (R162, 30_encoding.md R73). -/
def writeHeader (a c i p : Byte) (rs : List Reg) : List Byte :=
  [a, wireWrite, c, i, p, BitVec.ofNat 8 rs.length] ++ pack rs

/-- `build_read_frame` (R161). -/
def buildReadFrame (a c i p n : Byte) : List Byte := withCrc (readHeader a c i p n)

/-- `build_write_frame` (R162), for 1 to 127 registers. -/
def buildWriteFrame (a c i p : Byte) (rs : List Reg) : List Byte := withCrc (writeHeader a c i p rs)

/-- The expected response length `5 + 2n` of a request of `n` registers (R164). -/
def responseLength (n : Nat) : Nat := 5 + 2 * n

end Sys2Proof.Machine
end

