-- ==== Sys2Proof/Machine/Ops.lean ====
section
/-! DEFINITION. The named operations over the state: register writes, the command cycle (43_control.md R211), raising an
error and finishing (60_exceptions.md R225), the transaction context (42_frame_codec.md R183), the checks both parsers
share, and the host's own actions (10_state.md R37). -/

namespace Sys2Proof.Machine

/-! ## Register writes -/

/-- `CMD <- w`. -/
def State.setCmd (s : State) (w : CmdWord) : State := { s with cmd := w }

/-- `ACC <- a`. -/
def State.setAcc (s : State) (a : Reg) : State := { s with acc := a }

/-- `RESULT_LO <- v`: `RESULT[15:0]` (R26). -/
def State.setResultLo (s : State) (v : Reg) : State := { s with result := s.result.extractLsb' 16 16 ++ v }

/-- `RESULT_HI <- v`: `RESULT[31:16]` (R26). -/
def State.setResultHi (s : State) (v : Reg) : State := { s with result := v ++ s.result.extractLsb' 0 16 }

/-- `IN_BYTES <- b`. -/
def State.setInBytes (s : State) (b : List Byte) : State := { s with inBytes := b }

/-- `IN_REGS <- r`. -/
def State.setInRegs (s : State) (r : List Reg) : State := { s with inRegs := r }

/-- `OUT_BYTES <- b`. -/
def State.setOutBytes (s : State) (b : List Byte) : State := { s with outBytes := b }

/-- `OUT_REGS <- r`. -/
def State.setOutRegs (s : State) (r : List Reg) : State := { s with outRegs := r }

/-- `DIAG_EXPECTED <- e; DIAG_ACTUAL <- a` (R181). -/
def State.setDiag (s : State) (e a : List Byte) : State := { s with diagExpected := e, diagActual := a }

/-- `ERR_CODE <- code; ERR_ECHO <- echo` (R171, R178). -/
def State.setErr (s : State) (code echo : Byte) : State :=
  { s with status := { s.status with errCode := code, errEcho := echo } }

/-- `CTX <- c`. -/
def State.setCtx (s : State) (c : Ctx) : State := { s with ctx := c }

/-- `CTX.valid <- false` (R165, R168, R183); the other fields stay, read by no rule (log entry 11). -/
def State.closeCtx (s : State) : State := { s with ctx := { s.ctx with valid := false } }

/-- The host agent's actions still to take effect. -/
def State.setPending (s : State) (p : List HostAction) : State := { s with pending := p }

/-- The host agent notes what a `read` returned. -/
def State.addRead (s : State) (v : Reading) : State := { s with reads := s.reads ++ [v] }

/-! ## The command cycle and errors -/

/-- The start of every command (43_control.md R211): outputs, diagnostics, `RESULT` and the written fields of `STATUS`
are cleared. It is also what ends an error report: "The 'return' from an error is the host's next write of `CMD`"
(60_exceptions.md R227). -/
def State.startCommand (s : State) : State :=
  { s with outBytes := [], outRegs := [], diagExpected := [], diagActual := [], result := 0, status := ⟨0, 0, 0, 0⟩ }

/-- `finish` (60_exceptions.md R225): the outcome is OK. -/
def State.finish (s : State) : State := { s with status := ⟨0, 0, 0, 0⟩ }

/-- `raise <Class>(<REASON>)` (R225), the block's one exception mechanism: it sets `CLASS` and `REASON` and keeps what
the command wrote before. No control is transferred and nothing is saved (R227). A command raises before it writes
`OUT_BYTES` or `OUT_REGS`, so these stay as `startCommand` left them, empty. -/
def State.raise (s : State) (r : Reason) : State :=
  { s with status := { s.status with cls := r.cls.code, reason := r.code } }

/-- `RESULT_LO` and `RESULT_HI` take the computed and the received CRC of a frame (R115, R173, R180). -/
def State.recordCrcs (s : State) (f : List Byte) : State :=
  (s.setResultLo (computedCrc f)).setResultHi (receivedCrc f)

/-! ## What the two parsers share -/

/-- The context check of R183: without an open transaction of the parser's kind the error is `NO_CONTEXT` and `CTX` is
left unchanged; with one, it is consumed, "whatever follows", and the parser goes on with the count and the payload. -/
def withContext (k : TxKind) (s : State) (body : Byte → List Byte → State → State) : State :=
  if s.ctx.valid = true ∧ s.ctx.kind = k then body s.ctx.count s.ctx.payload s.closeCtx
  else s.raise .noContext

/-- Steps 1 and 2 of the read parser (R170, R171) and step 1 of the write parser (R177, R178): the minimum length and
the echoed command byte. -/
def withResponse (echo : Byte) (s : State) (body : List Byte → State → State) : State :=
  if s.inBytes.length < 3 then (s.setResultLo (len16 s.inBytes.length)).raise .shortResponse
  else if byteAt s.inBytes 1 ≠ echo then
    (s.setErr (byteAt s.inBytes 2) (byteAt s.inBytes 1)).raise .echoMismatch
  else body s.inBytes s

/-! ## The reset values and the host's actions -/

/-- Every state of the block takes its reset value (10_state.md R36, R250). What the host agent has issued and read is
no state of the block and stays (log entry 9). -/
def State.resetBlock (s : State) : State := { State.reset with pending := s.pending, reads := s.reads }

/-- `write IN_BYTES b` (R37), refused beyond the capacity (R27). -/
def hostWriteBytes (b : List Byte) (s : State) : Answer :=
  if b.length ≤ Config.byteBufCap then .next (s.setInBytes b) else .refused (.inBytesOverCapacity b.length)

/-- `write IN_REGS r` (R37), refused beyond the capacity (R27). -/
def hostWriteRegs (r : List Reg) (s : State) : Answer :=
  if r.length ≤ Config.regBufCap then .next (s.setInRegs r) else .refused (.inRegsOverCapacity r.length)

/-- The value a host read of `X` returns (R37). -/
def reading (x : HostReg) (s : State) : Reading :=
  match x with
  | .cmd => .cmd s.cmd
  | .status => .status (statusWord s)
  | .result => .result s.result
  | .inBytes => .inBytes s.inBytes
  | .inRegs => .inRegs s.inRegs
  | .outBytes => .outBytes s.outBytes
  | .outRegs => .outRegs s.outRegs
  | .diagExpected => .diagExpected s.diagExpected
  | .diagActual => .diagActual s.diagActual

/-- `read X` (R37): it has no side effect on the block (20_memory.md R58). -/
def hostRead (x : HostReg) (s : State) : Answer := .next (s.addRead (reading x s))

/-- `reset` (R37, R250). -/
def hostReset (s : State) : Answer := .next s.resetBlock

end Sys2Proof.Machine
end

