-- ==== Sys2Proof/Machine/Codec.lean ====
section
/-! DEFINITION. The register codec commands (41_register_codec.md section 2, R143 and R144). -/

namespace Sys2Proof.Machine

/-- `PACK` (R143). -/
def execPack (s : State) : Answer :=
  let out := pack s.inRegs
  .next ((s.startCommand.setOutBytes out).setResultLo (len16 out.length)).finish

/-- `UNPACK` (R144). -/
def execUnpack (s : State) : Answer :=
  if s.inBytes.length % 2 = 1 then .next (s.startCommand.raise .oddLength)
  else
    let out := unpack s.inBytes
    .next ((s.startCommand.setOutRegs out).setResultLo (len16 out.length)).finish

end Sys2Proof.Machine
end

