-- ==== Sys2Proof/Machine/Control.lean ====
section
/-! DEFINITION. The control command `CLEAR` (43_control.md R213) and the illegal command (R212). -/

namespace Sys2Proof.Machine

/-- `CLEAR` (R213): every state of 10_state.md R36 takes its reset value, except `CMD`, which keeps the value just
written. -/
def execClear (s : State) : Answer := .next (s.startCommand.resetBlock.setCmd s.cmd).finish

/-- The illegal command (R212): a word whose `OP` is not in the map of 30_encoding.md R80. -/
def execIllegal (s : State) : Answer := .next (s.startCommand.raise .illegalOp)

end Sys2Proof.Machine
end

