-- ==== Sys2Proof/Machine/Crc.lean ====
section
/-! DEFINITION. The CRC commands (40_crc.md section 2, R110 to R116). Each meaning is the whole command after `CMD` has
been latched: the start of the command (43_control.md R211) and then its rule's pseudocode (log entry 14). -/

namespace Sys2Proof.Machine

/-- `CRC_INIT` (R110). -/
def execCrcInit (s : State) : Answer :=
  .next ((s.startCommand.setAcc crcSeed).setResultLo crcSeed).finish

/-- `CRC_FEED` (R111). -/
def execCrcFeed (n : Byte) (s : State) : Answer :=
  let acc := crcStep s.acc n
  .next ((s.startCommand.setAcc acc).setResultLo acc).finish

/-- `CRC_FEED_BUF` (R112). -/
def execCrcFeedBuf (s : State) : Answer :=
  let acc := crcFold s.acc s.inBytes
  .next ((s.startCommand.setAcc acc).setResultLo acc).finish

/-- `CRC_READ` (R113). -/
def execCrcRead (s : State) : Answer :=
  .next ((s.startCommand.setResultLo s.acc).setOutBytes (crcBytes s.acc)).finish

/-- `CRC_BLOCK` (R114). -/
def execCrcBlock (s : State) : Answer :=
  let c := crc16 s.inBytes
  .next ((s.startCommand.setResultLo c).setOutBytes (crcBytes c)).finish

/-- `CRC_VERIFY` (R115). -/
def execCrcVerify (s : State) : Answer :=
  let f := s.inBytes
  if f.length < 2 then .next (s.startCommand.raise .shortInput)
  else if computedCrc f ≠ receivedCrc f then .next ((s.startCommand.recordCrcs f).raise .crcMismatch)
  else .next (s.startCommand.recordCrcs f).finish

/-- `TABLE_READ` (R116). -/
def execTableRead (n : Byte) (s : State) : Answer :=
  .next (s.startCommand.setResultLo (tableAt n)).finish

end Sys2Proof.Machine
end

