-- ==== Sys2Proof/Machine/Frame.lean ====
section
/-! DEFINITION. The frame codec commands: the builders (42_frame_codec.md R163 to R168) and the parsers (R169 to R183,
R185). -/

namespace Sys2Proof.Machine

/-- What a successful build leaves (R165, R168): the frame, the expected response length, the CRC placed in the frame,
and the open transaction. -/
def buildOutputs (h : List Byte) (n : Nat) (c : Ctx) (s : State) : State :=
  ((((s.setOutBytes (withCrc h)).setResultLo (len16 (responseLength n))).setResultHi (crc16 h)).setCtx c).finish

/-- `BUILD_READ` (R165), with its checks in the order of R163. -/
def execBuildRead (a c i p n : Byte) (s : State) : Answer :=
  let s := s.startCommand.closeCtx
  if categoryLegal c = false then .next (s.raise .categoryRange)
  else if n.toNat < 1 then .next (s.raise .countZero)
  else .next (buildOutputs (readHeader a c i p n) n.toNat ⟨true, .read, n, []⟩ s)

/-- `BUILD_WRITE` (R168), with its checks in the order of R166 and R167. -/
def execBuildWrite (a c i p : Byte) (s : State) : Answer :=
  let rs := s.inRegs
  let s := s.startCommand.closeCtx
  if categoryLegal c = false then .next (s.raise .categoryRange)
  else if rs.length = 0 then .next (s.raise .countZero)
  else if Config.maxWriteCount < rs.length then .next (s.raise .countRange)
  else .next (buildOutputs (writeHeader a c i p rs) rs.length
    ⟨true, .write, BitVec.ofNat 8 rs.length, pack rs⟩ s)

/-- Steps 3 and 4 of the read parser (R172 to R174) on the response `r` to a read of `n` registers; `check` is
`READ_CRC_CHECK`. Bytes 0 and 2 are not looked at (R184, R185). -/
def readResponse (check : Bool) (n : Byte) (r : List Byte) (s : State) : State :=
  if (r.length : Int) - 5 ≠ 2 * (n.toNat : Int) then
    ((s.setResultLo (len16 r.length)).setResultHi (len16 (responseLength n.toNat))).raise .readDataLength
  else if (!crcOk r && check) = true then (s.recordCrcs r).raise .crcMismatch
  else ((s.setOutRegs (unpack (slice r 3 (2 * n.toNat)))).setResultLo (n.setWidth 16)).finish

/-- The read parser (R169, R175), for either value of `READ_CRC_CHECK`. -/
def parseReadWith (check : Bool) (s : State) : State :=
  withContext .read s.startCommand fun n _ s => withResponse wireRead s fun r s => readResponse check n r s

/-- `PARSE_READ` (R175). -/
def execParseRead (s : State) : Answer := .next (parseReadWith Config.readCrcCheck s)

/-- Steps 2 to 4 of the write parser (R179 to R181) on the response `r` to a write of `n` registers whose packed
payload was `sent`. -/
def writeResponse (n : Byte) (sent r : List Byte) (s : State) : State :=
  let declared := byteAt r 2
  let actual := slice r 3 declared.toNat
  if (declared.toNat : Int) ≠ (r.length : Int) - 5 then
    ((s.setResultLo (len16 r.length)).setResultHi (len16 (5 + declared.toNat))).raise .writeDeclaredLength
  else if crcOk r = false then (s.recordCrcs r).raise .crcMismatch
  else if actual ≠ sent then (s.setDiag sent actual).raise .payloadMismatch
  else (s.setResultLo (n.setWidth 16)).finish

/-- `PARSE_WRITE` (R182). -/
def execParseWrite (s : State) : Answer :=
  .next (withContext .write s.startCommand fun n sent s =>
    withResponse wireWrite s fun r s => writeResponse n sent r s)

end Sys2Proof.Machine
end

