-- ==== Sys2Proof/Machine/Dispatch.lean ====
section
/-! DEFINITION. The meaning of each command, one arm per constructor of Instr (43_control.md R210). -/

namespace Sys2Proof.Machine

def exec (i : Instr) (s : State) : Host.Outcome State Fault Refusal :=
  match i with
  | .crcInit => Sys2Proof.Machine.execCrcInit s
  | .crcFeed n => Sys2Proof.Machine.execCrcFeed n s
  | .crcFeedBuf => Sys2Proof.Machine.execCrcFeedBuf s
  | .crcRead => Sys2Proof.Machine.execCrcRead s
  | .crcBlock => Sys2Proof.Machine.execCrcBlock s
  | .crcVerify => Sys2Proof.Machine.execCrcVerify s
  | .tableRead n => Sys2Proof.Machine.execTableRead n s
  | .clear => Sys2Proof.Machine.execClear s
  | .pack => Sys2Proof.Machine.execPack s
  | .unpack => Sys2Proof.Machine.execUnpack s
  | .buildRead a c x p n => Sys2Proof.Machine.execBuildRead a c x p n s
  | .buildWrite a c x p => Sys2Proof.Machine.execBuildWrite a c x p s
  | .parseRead => Sys2Proof.Machine.execParseRead s
  | .parseWrite => Sys2Proof.Machine.execParseWrite s

end Sys2Proof.Machine
end

