-- ==== Sys2Proof/Machine/Cycle.lean ====
section
/-! DEFINITION. What a write of `CMD` does (43_control.md R210) and the effect of each host action (10_state.md R37). -/

namespace Sys2Proof.Machine

/-- `on host write CMD <- w` (R210): `CMD` is latched and the command its `OP` selects runs, or the illegal-command
rule (R212) where the map has none. The start of the command (R211) is part of each meaning (log entry 14). -/
def runCommand (w : CmdWord) (s : State) : Answer :=
  match decode w with
  | .ok i => exec i (s.setCmd w)
  | .error _ => execIllegal (s.setCmd w)

/-- One host action takes effect (R37). -/
def hostAct (a : HostAction) (s : State) : Answer :=
  match a with
  | .writeBytes b => hostWriteBytes b s
  | .writeRegs r => hostWriteRegs r s
  | .writeCmd w => runCommand w s
  | .read x => hostRead x s
  | .reset => hostReset s

end Sys2Proof.Machine
end

