-- ==== Sys2Proof/Machine/Step.lean ====
section
/-! DEFINITION. One step of the block and its host: the oldest host action that has not taken effect yet takes effect,
whole (20_memory.md R57, R60). -/

namespace Sys2Proof.Machine

/-- One step. The block has no program counter and fetches nothing (10_state.md R23): the next command is whichever one
the host writes next. With no action pending the block is idle and its state persists (60_exceptions.md R232; log
entry 5). -/
def step (s : State) : Host.Outcome State Fault Refusal :=
  match s.pending with
  | [] => .next s
  | a :: rest => hostAct a (s.setPending rest)

/-- The state whose very next step runs the command of an opcode-table word: the host's next action is the write of that
word to `CMD` (log entry 3). -/
def State.withFetchWord (s : State) (nbits w : Nat) : State :=
  s.setPending (.writeCmd (tableWord nbits w) :: s.pending)

end Sys2Proof.Machine
end

