-- ==== Sys2Proof/WellFormed.lean ====
section
/-! DEFINITION. Well-formedness of the syntax: of commands and of host actions. -/

namespace Sys2Proof

/-- A command's operands are bytes, and R24 and R80 let every byte stand in every field ("Every bit pattern may be
written"): a category above 7 or a count of 0 is a command that runs and reports an error (R163), not an ill-formed
one. So the type already says all there is to check, and every command is well-formed. -/
def Instr.wf : Instr → Bool
  | .crcInit => true
  | .crcFeed _ => true
  | .crcFeedBuf => true
  | .crcRead => true
  | .crcBlock => true
  | .crcVerify => true
  | .tableRead _ => true
  | .clear => true
  | .pack => true
  | .unpack => true
  | .buildRead _ _ _ _ _ => true
  | .buildWrite _ _ _ _ => true
  | .parseRead => true
  | .parseWrite => true

/-- The preconditions of the host's actions (10_state.md R37): a buffer write fits its buffer's capacity (R27). -/
def HostAction.wf : HostAction → Bool
  | .writeBytes s => decide (s.length ≤ Config.byteBufCap)
  | .writeRegs s => decide (s.length ≤ Config.regBufCap)
  | .writeCmd _ => true
  | .read _ => true
  | .reset => true

end Sys2Proof
end

