-- ==== Sys2Proof/Safety.lean ====
section
/-! DEFINITION. The terms the claims use: the invariant of the block's state, the hosts whose actions are never refused,
and the bit-serial form of the CRC that the table form is compared with. -/

namespace Sys2Proof.Machine

/-- The pairs of `CLASS` and `REASON` codes `STATUS` may hold: OK, and the rows of the table of 60_exceptions.md R221
("Every (CLASS, REASON) pair not listed is never written"). -/
def legalOutcomes : List (BitVec 3 × Byte) :=
  [(0, 0), (1, 1), (1, 2), (1, 3), (1, 4), (1, 5), (1, 6), (1, 7), (2, 1), (3, 1), (4, 1), (4, 2), (5, 1), (5, 2)]

/-- The shape of the transaction context (10_state.md R31): a read sent no payload, a write sent 2 bytes for each of its
1 to 127 registers (42_frame_codec.md R166, R167), and an open read asked for at least one register (R163). -/
def Ctx.Shape (c : Ctx) : Prop :=
  match c.kind with
  | .read => c.payload = [] ∧ (c.valid = true → 1 ≤ c.count.toNat)
  | .write => c.payload.length = 2 * c.count.toNat ∧ 1 ≤ c.count.toNat ∧ c.count.toNat ≤ Config.maxWriteCount

/-- What holds of every state a run reaches. -/
structure State.Inv (s : State) : Prop where
  /-- R27. -/
  inBytes_fit : s.inBytes.length ≤ Config.byteBufCap
  /-- R27. -/
  inRegs_fit : s.inRegs.length ≤ Config.regBufCap
  /-- R27: "A command never overflows a buffer". -/
  outBytes_fit : s.outBytes.length ≤ Config.byteBufCap
  /-- R27. -/
  outRegs_fit : s.outRegs.length ≤ Config.regBufCap
  /-- R21: `DIAG_EXPECTED` has length 0..254. -/
  diagExpected_fit : s.diagExpected.length ≤ 254
  /-- R21: `DIAG_ACTUAL` has length 0..255. -/
  diagActual_fit : s.diagActual.length ≤ 255
  /-- R31. -/
  ctx_shape : s.ctx.Shape
  /-- R25, R221: `STATUS` holds a listed outcome. -/
  outcome_legal : (s.status.cls, s.status.reason) ∈ legalOutcomes
  /-- R25: `ERR_CODE` and `ERR_ECHO` are 0 but on a ProtocolError. -/
  err_only_protocol : s.status.cls ≠ 3 → s.status.errCode = 0 ∧ s.status.errEcho = 0
  /-- R29: a command that fails leaves the outputs empty. -/
  failure_no_outputs : s.status.cls ≠ 0 → s.outBytes = [] ∧ s.outRegs = []
  /-- R30: only a payload mismatch fills the diagnostic buffers. -/
  diag_only_mismatch : ¬(s.status.cls = 5 ∧ s.status.reason = 2) → s.diagExpected = [] ∧ s.diagActual = []

/-- A host whose buffer writes all fit their buffers (10_state.md R37, the precondition column). -/
def State.HostFits (s : State) : Prop := ∀ a ∈ s.pending, a.wf = true

end Sys2Proof.Machine

namespace Sys2Proof.Reference

/-- One bit of the reflected CRC: `if c[0] = 1 then (c >> 1) ^ 0xA001 else c >> 1` (40_crc.md R101, R104). -/
def bitStep (c : Reg) : Reg := if c.getLsbD 0 then (c >>> 1) ^^^ 0xA001#16 else c >>> 1

/-- `n` bit steps. -/
def bitSteps : Nat → Reg → Reg
  | 0, c => c
  | n + 1, c => bitSteps n (bitStep c)

/-- `table_entry(i)` of 40_crc.md R101. -/
def tableEntry (i : Byte) : Reg := bitSteps 8 (i.setWidth 16)

/-- The bit-serial update of 40_crc.md R104: `acc ^= b`, then eight bit steps. -/
def serialStep (acc : Reg) (b : Byte) : Reg := bitSteps 8 (acc ^^^ b.setWidth 16)

/-- The bit-serial CRC of a sequence (R104), from the seed `0xFFFF` (R100). -/
def serialCrc (s : List Byte) : Reg := s.foldl serialStep 0xFFFF#16

end Sys2Proof.Reference
end

