-- ==== Sys2Proof/Certificates/Slice0/Obligations.lean ====
section
/-! DEFINITION. The statements for the provers. Each says what a rule of spec/ says of the block; the rules are named
in OBLIGATIONS.json beside each statement. A next state is written out as the state before it with every changed field:
what is not named there is unchanged, which is the frame. -/

open Sys2Proof Sys2Proof.Machine Sys2Proof.Reference

/-! ## Encoding -/

/-- Decoding the word of a command gives it back, with every byte in every field (30_encoding.md R80, R84). -/
def Obligations.DecodeEncodeRoundTrip : Prop :=
  ∀ i : Instr, i.wf = true → decode (encode i) = .ok i

/-- A word decodes to the one command its opcode and named fields spell: the word and the command's own encoding agree
on every bit the row names, and every word that agrees on those bits decodes to the same command (R80: "A command
ignores every field its row does not name, so any value there selects the same command"). -/
def Obligations.DecodeReadsExactlyTheNamedBits : Prop :=
  ∀ (w : CmdWord) (i : Instr), decode w = .ok i →
    w &&& readMask i = encode i ∧
    ∀ w' : CmdWord, w' &&& readMask i = w &&& readMask i → decode w' = .ok i

/-- The words that decode to no command are those whose `OP` is one of the 242 values R82 lists as ranges, and the
error names the `OP`. -/
def Obligations.IllegalOpcodesAreTheListedRanges : Prop :=
  ∀ w : CmdWord, decode w = .error (.illegalOp (w.extractLsb' 0 8)) ↔
    (w.extractLsb' 0 8).toNat = 0x00 ∨
    (0x08 ≤ (w.extractLsb' 0 8).toNat ∧ (w.extractLsb' 0 8).toNat ≤ 0x0E) ∨
    (0x12 ≤ (w.extractLsb' 0 8).toNat ∧ (w.extractLsb' 0 8).toNat ≤ 0x1F) ∨
    (0x22 ≤ (w.extractLsb' 0 8).toNat ∧ (w.extractLsb' 0 8).toNat ≤ 0x2F) ∨
    (0x32 ≤ (w.extractLsb' 0 8).toNat ∧ (w.extractLsb' 0 8).toNat ≤ 0xFF)

/-- Words of 95_test_vectors.md decode to the commands written beside them there. -/
def Obligations.WordsOfTheSpecDecode : Prop :=
  decode 0x550000000002#48 = .ok (.crcFeed 0x55) ∧
  decode 0xFE0000000007#48 = .ok (.tableRead 0xFE) ∧
  decode 0x00000000000F#48 = .ok .clear ∧
  decode 0x000000000010#48 = .ok .pack ∧
  decode 0x070000050120#48 = .ok (.buildRead 0x01 5 0 0 7) ∧
  decode 0x770300020121#48 = .ok (.buildWrite 0x01 2 0 3) ∧
  decode 0x000000000031#48 = .ok .parseWrite ∧
  decode 0x000000000008#48 = .error (.illegalOp 0x08)

/-! ## The step and the host -/

/-- A step whose host action is a write of `CMD` takes that action off the queue and does what a write of `CMD` does;
where the word decodes to a command, it latches the word and runs that command (43_control.md R210). The queue of pending
actions is the model's own (log entry 3). -/
def Obligations.StepRunsTheDecodedCommand : Prop :=
  ∀ (s : State) (w : CmdWord) (rest : List HostAction), s.pending = .writeCmd w :: rest →
    step s = runCommand w { s with pending := rest } ∧
    ∀ i : Instr, decode w = .ok i → i.wf = true → step s = exec i { s with cmd := w, pending := rest }

/-- A write to `CMD` of a word whose `OP` is outside the map runs the illegal-command rule: the word is latched, the
outputs are cleared, ValidationError `ILLEGAL_OP` is reported, and nothing else changes, `CTX` and `ACC` among it
(R212). -/
def Obligations.IllegalCommandReportsIllegalOp : Prop :=
  ∀ (s : State) (w : CmdWord),
    (w.extractLsb' 0 8) ∉ [0x01#8, 0x02#8, 0x03#8, 0x04#8, 0x05#8, 0x06#8, 0x07#8, 0x0F#8, 0x10#8, 0x11#8, 0x20#8,
      0x21#8, 0x30#8, 0x31#8] →
    runCommand w s = .next { s with
      cmd := w, outBytes := [], outRegs := [], diagExpected := [], diagActual := [], result := 0,
      status := ⟨1, 1, 0, 0⟩ }

/-- A host write of a buffer within its capacity replaces the whole sequence and changes nothing else; one beyond it is
refused and has no next state (10_state.md R27, R37). -/
def Obligations.HostBufferWritesFitOrAreRefused : Prop :=
  ∀ (s : State) (rest : List HostAction),
    (∀ b : List Byte, s.pending = .writeBytes b :: rest →
      (b.length ≤ Config.byteBufCap → step s = .next { s with pending := rest, inBytes := b }) ∧
      (Config.byteBufCap < b.length → step s = .refused (.inBytesOverCapacity b.length))) ∧
    (∀ r : List Reg, s.pending = .writeRegs r :: rest →
      (r.length ≤ Config.regBufCap → step s = .next { s with pending := rest, inRegs := r }) ∧
      (Config.regBufCap < r.length → step s = .refused (.inRegsOverCapacity r.length)))

/-- A host read returns the register and changes nothing of the block (10_state.md R37, 20_memory.md R58). The list of
values returned is the model's own (log entry 4). -/
def Obligations.HostReadsReturnTheRegister : Prop :=
  ∀ (s : State) (rest : List HostAction) (x : HostReg) (v : Reading),
    (x, v) ∈ [(HostReg.cmd, Reading.cmd s.cmd), (.status, .status (statusWord s)), (.result, .result s.result),
      (.inBytes, .inBytes s.inBytes), (.inRegs, .inRegs s.inRegs), (.outBytes, .outBytes s.outBytes),
      (.outRegs, .outRegs s.outRegs), (.diagExpected, .diagExpected s.diagExpected),
      (.diagActual, .diagActual s.diagActual)] →
    s.pending = .read x :: rest → step s = .next { s with pending := rest, reads := s.reads ++ [v] }

/-- The host's `reset` gives every state of the block its reset value (70_reset_and_hazards.md R250). What the host has
still to do and has read is the model's own and stays (log entry 9). -/
def Obligations.HostResetRestoresResetValues : Prop :=
  ∀ (s : State) (rest : List HostAction), s.pending = .reset :: rest →
    step s = .next { State.reset with pending := rest, reads := s.reads }

/-- With no host action pending the block is idle: its state persists (60_exceptions.md R232). That a step is then one
that changes nothing is the model's choice (log entry 5). -/
def Obligations.IdleBlockKeepsItsState : Prop :=
  ∀ s : State, s.pending = [] → step s = .next s

/-! ## Reset and STATUS -/

/-- The reset values of 10_state.md R36. -/
def Obligations.ResetValuesAreTheListedOnes : Prop :=
  State.reset.cmd = 0 ∧ statusWord State.reset = 0 ∧
  State.reset.status.cls = 0 ∧ State.reset.status.reason = 0 ∧
  State.reset.status.errCode = 0 ∧ State.reset.status.errEcho = 0 ∧
  State.reset.result = 0 ∧
  State.reset.inBytes = [] ∧ State.reset.outBytes = [] ∧
  State.reset.diagExpected = [] ∧ State.reset.diagActual = [] ∧
  State.reset.inRegs = [] ∧ State.reset.outRegs = [] ∧
  State.reset.ctx.valid = false ∧ State.reset.ctx.kind = .read ∧
  State.reset.ctx.count = 0 ∧ State.reset.ctx.payload = [] ∧
  State.reset.acc = 0xFFFF#16

/-- The fields of the `STATUS` word (10_state.md R25), bit by bit, in every state. -/
def Obligations.StatusWordHasTheListedFields : Prop :=
  ∀ s : State,
    (statusWord s).extractLsb' 0 3 = s.status.cls ∧
    (statusWord s).getLsbD 3 = s.ctx.valid ∧
    (statusWord s).getLsbD 4 = (s.ctx.valid && decide (s.ctx.kind = .write)) ∧
    (statusWord s).extractLsb' 5 3 = 0 ∧
    (statusWord s).extractLsb' 8 8 = s.status.reason ∧
    (statusWord s).extractLsb' 16 8 = s.status.errCode ∧
    (statusWord s).extractLsb' 24 8 = s.status.errEcho

/-! ## The CRC functions -/

/-- `TABLE[i]` is eight LSB-first steps from `i` with the constant `0xA001` (40_crc.md R101). -/
def Obligations.TableEntriesAreEightBitSteps : Prop :=
  ∀ i : Byte, tableAt i = tableEntry i

/-- `crc_step(acc, b)` (R102): the byte goes into the low 8 bits, the accumulator shifts right by 8, and the table entry
of the low byte of the pre-shift result is XORed in; the byte does not reach the bits that stay. -/
def Obligations.CrcStepIsShiftAndTable : Prop :=
  ∀ (acc : Reg) (b : Byte),
    crcStep acc b = ((acc ^^^ b.setWidth 16) >>> 8) ^^^ tableAt ((acc ^^^ b.setWidth 16).extractLsb' 0 8) ∧
    (acc ^^^ b.setWidth 16) >>> 8 = acc >>> 8

/-- `crc16` starts from the seed `0xFFFF` and takes the bytes in order (R103). -/
def Obligations.CrcStartsFromSeedAndTakesBytesInOrder : Prop :=
  crc16 [] = 0xFFFF#16 ∧ ∀ (s : List Byte) (b : Byte), crc16 (s ++ [b]) = crcStep (crc16 s) b

/-- The table-driven CRC equals the bit-serial one, byte by byte and on every sequence (R104). -/
def Obligations.TableCrcEqualsBitSerialCrc : Prop :=
  (∀ (acc : Reg) (b : Byte), crcStep acc b = serialStep acc b) ∧ ∀ s : List Byte, crc16 s = serialCrc s

/-- A CRC goes on the wire low byte first, and reading the two bytes back gives it (R105). -/
def Obligations.CrcBytesGoLowByteFirst : Prop :=
  (∀ c : Reg, crcBytes c = [c.extractLsb' 0 8, c.extractLsb' 8 8]) ∧
  (∀ lo hi : Byte, crcOfBytes lo hi = lo.setWidth 16 ||| (hi.setWidth 16 <<< 8)) ∧
  (∀ c : Reg, crcOfBytes (c.extractLsb' 0 8) (c.extractLsb' 8 8) = c)

/-- A frame of at least two bytes passes the CRC check exactly when its last two bytes are the CRC of the bytes before
them, low byte first (R106). -/
def Obligations.CrcCheckComparesTheTrailingBytes : Prop :=
  ∀ f : List Byte, 2 ≤ f.length →
    (crcOk f = true ↔ ∃ m : List Byte, f = m ++ [(crc16 m).extractLsb' 0 8, (crc16 m).extractLsb' 8 8])

/-- The residual property (R107), and its converse, which makes a zero residual the same test as the CRC check. -/
def Obligations.ZeroResidualIsTheCrcCheck : Prop :=
  (∀ s : List Byte, crc16 (s ++ crcBytes (crc16 s)) = 0) ∧
  ∀ f : List Byte, 2 ≤ f.length → (crcOk f = true ↔ crc16 f = 0)

/-- Changing one byte of a sequence changes its CRC: what the integrity check rests on. -/
def Obligations.OneChangedByteChangesTheCrc : Prop :=
  ∀ (u v : List Byte) (x y : Byte), crc16 (u ++ x :: v) = crc16 (u ++ y :: v) → x = y

/-! ## The register codec functions -/

/-- `pack` puts register `k` at bytes `2k` (high) and `2k+1` (low), and nothing else (41_register_codec.md R140). -/
def Obligations.PackPutsHighByteThenLowByte : Prop :=
  pack [] = [] ∧ ∀ rs : List Reg, (pack rs).length = 2 * rs.length ∧
    ∀ (k : Nat) (r : Reg), rs[k]? = some r →
      (pack rs)[2 * k]? = some (r.extractLsb' 8 8) ∧ (pack rs)[2 * k + 1]? = some (r.extractLsb' 0 8)

/-- `unpack` of an even number of bytes makes register `k` of bytes `2k` and `2k+1` (R141). -/
def Obligations.UnpackJoinsBytePairs : Prop :=
  unpack [] = [] ∧ ∀ s : List Byte, s.length % 2 = 0 → (unpack s).length = s.length / 2 ∧
    ∀ (k : Nat) (hi lo : Byte), s[2 * k]? = some hi → s[2 * k + 1]? = some lo →
      (unpack s)[k]? = some ((hi.setWidth 16 <<< 8) ||| lo.setWidth 16)

/-- The codec round trips (R145). -/
def Obligations.PackAndUnpackAreInverse : Prop :=
  (∀ rs : List Reg, unpack (pack rs) = rs) ∧ ∀ s : List Byte, s.length % 2 = 0 → pack (unpack s) = s

/-! ## The CRC commands -/

/-- `CRC_INIT` (40_crc.md R110). -/
def Obligations.CrcInitSeedsTheAccumulator : Prop :=
  (∀ w : CmdWord, w.extractLsb' 0 8 = 0x01#8 → decode w = .ok .crcInit) ∧
  ∀ s : State, exec .crcInit s = .next { s with
    outBytes := [], outRegs := [], diagExpected := [], diagActual := [], status := ⟨0, 0, 0, 0⟩,
    result := 0x0000FFFF#32, acc := 0xFFFF#16 }

/-- `CRC_FEED` (R111). -/
def Obligations.CrcFeedAddsOneByte : Prop :=
  (∀ w : CmdWord, w.extractLsb' 0 8 = 0x02#8 → decode w = .ok (.crcFeed (w.extractLsb' 40 8))) ∧
  ∀ (s : State) (n : Byte), exec (.crcFeed n) s = .next { s with
    outBytes := [], outRegs := [], diagExpected := [], diagActual := [], status := ⟨0, 0, 0, 0⟩,
    result := 0#16 ++ crcStep s.acc n, acc := crcStep s.acc n }

/-- `CRC_FEED_BUF` (R112); bytes fed in two pieces are the bytes fed at once. -/
def Obligations.CrcFeedBufAddsEveryByte : Prop :=
  (∀ w : CmdWord, w.extractLsb' 0 8 = 0x03#8 → decode w = .ok .crcFeedBuf) ∧
  (∀ (a : Reg) (u v : List Byte), (u ++ v).foldl crcStep a = v.foldl crcStep (u.foldl crcStep a)) ∧
  ∀ s : State, exec .crcFeedBuf s = .next { s with
    outBytes := [], outRegs := [], diagExpected := [], diagActual := [], status := ⟨0, 0, 0, 0⟩,
    result := 0#16 ++ s.inBytes.foldl crcStep s.acc, acc := s.inBytes.foldl crcStep s.acc }

/-- Feeding `u` and then `v` leaves the state that feeding `u ++ v` leaves, but for `IN_BYTES`; and from a fresh seed
both are the CRC of the whole (R112, the corner case; 70_reset_and_hazards.md R257). -/
def Obligations.FeedingInPiecesIsFeedingTheWhole : Prop :=
  ∀ (s t t' t'' : State) (u v : List Byte),
    exec .crcFeedBuf { s with inBytes := u } = .next t → exec .crcFeedBuf { t with inBytes := v } = .next t' →
    exec .crcFeedBuf { s with inBytes := u ++ v } = .next t'' →
    t' = { t'' with inBytes := v } ∧ (s.acc = 0xFFFF#16 → t'.acc = crc16 (u ++ v))

/-- `CRC_READ` (R113). -/
def Obligations.CrcReadReturnsTheAccumulator : Prop :=
  (∀ w : CmdWord, w.extractLsb' 0 8 = 0x04#8 → decode w = .ok .crcRead) ∧
  ∀ s : State, exec .crcRead s = .next { s with
    outRegs := [], diagExpected := [], diagActual := [], status := ⟨0, 0, 0, 0⟩,
    result := 0#16 ++ s.acc, outBytes := [s.acc.extractLsb' 0 8, s.acc.extractLsb' 8 8] }

/-- `CRC_BLOCK` (R114). -/
def Obligations.CrcBlockReturnsTheCrcOfInBytes : Prop :=
  (∀ w : CmdWord, w.extractLsb' 0 8 = 0x05#8 → decode w = .ok .crcBlock) ∧
  ∀ s : State, exec .crcBlock s = .next { s with
    outRegs := [], diagExpected := [], diagActual := [], status := ⟨0, 0, 0, 0⟩,
    result := 0#16 ++ crc16 s.inBytes,
    outBytes := [(crc16 s.inBytes).extractLsb' 0 8, (crc16 s.inBytes).extractLsb' 8 8] }

/-- `CRC_VERIFY` (R115): fewer than 2 bytes; a match; a mismatch. `RESULT` holds the received CRC above the computed
one whenever there are two bytes. -/
def Obligations.CrcVerifyComparesTheTrailingCrc : Prop :=
  (∀ w : CmdWord, w.extractLsb' 0 8 = 0x06#8 → decode w = .ok .crcVerify) ∧
  (∀ s : State, s.inBytes.length < 2 → exec .crcVerify s = .next { s with
    outBytes := [], outRegs := [], diagExpected := [], diagActual := [], result := 0, status := ⟨1, 7, 0, 0⟩ }) ∧
  ∀ (s : State) (m : List Byte) (lo hi : Byte), s.inBytes = m ++ [lo, hi] →
    (crc16 m = hi ++ lo → exec .crcVerify s = .next { s with
      outBytes := [], outRegs := [], diagExpected := [], diagActual := [], status := ⟨0, 0, 0, 0⟩,
      result := (hi ++ lo) ++ crc16 m }) ∧
    (crc16 m ≠ hi ++ lo → exec .crcVerify s = .next { s with
      outBytes := [], outRegs := [], diagExpected := [], diagActual := [], status := ⟨5, 1, 0, 0⟩,
      result := (hi ++ lo) ++ crc16 m })

/-- `TABLE_READ` (R116), with the entries the rule names. -/
def Obligations.TableReadReturnsTheEntry : Prop :=
  (∀ w : CmdWord, w.extractLsb' 0 8 = 0x07#8 → decode w = .ok (.tableRead (w.extractLsb' 40 8))) ∧
  (∀ (s : State) (n : Byte), exec (.tableRead n) s = .next { s with
    outBytes := [], outRegs := [], diagExpected := [], diagActual := [], status := ⟨0, 0, 0, 0⟩,
    result := 0#16 ++ tableAt n }) ∧
  tableAt 0x00 = 0x0000#16 ∧ tableAt 0x01 = 0xC0C1#16 ∧ tableAt 0x80 = 0xA001#16

/-- The accumulator is private to the incremental commands (10_state.md R32): no other command's outcome depends on it,
and none of them but `CLEAR` changes it. -/
def Obligations.OtherCommandsNeverTouchTheAccumulator : Prop :=
  ∀ (i : Instr) (s t : State) (a : Reg),
    i ∈ [.crcBlock, .crcVerify, .pack, .unpack, .parseRead, .parseWrite] ∨ (∃ n, i = .tableRead n) ∨
      (∃ b c x p n, i = .buildRead b c x p n) ∨ (∃ b c x p, i = .buildWrite b c x p) →
    exec i s = .next t → t.acc = s.acc ∧ exec i { s with acc := a } = .next { t with acc := a }

/-! ## The register codec commands -/

/-- `PACK` (41_register_codec.md R143), from a state whose registers fit their buffer (R27). -/
def Obligations.PackCommandPacksInRegs : Prop :=
  (∀ w : CmdWord, w.extractLsb' 0 8 = 0x10#8 → decode w = .ok .pack) ∧
  ∀ s : State, s.inRegs.length ≤ Config.regBufCap →
    exec .pack s = .next { s with
      outRegs := [], diagExpected := [], diagActual := [], status := ⟨0, 0, 0, 0⟩,
      outBytes := pack s.inRegs, result := BitVec.ofNat 32 (2 * s.inRegs.length) } ∧
    2 * s.inRegs.length ≤ Config.byteBufCap

/-- `UNPACK` (R144), from a state whose bytes fit their buffer: an odd length is a ValidationError with no registers. -/
def Obligations.UnpackCommandUnpacksInBytes : Prop :=
  (∀ w : CmdWord, w.extractLsb' 0 8 = 0x11#8 → decode w = .ok .unpack) ∧
  (∀ s : State, s.inBytes.length ≤ Config.byteBufCap → s.inBytes.length % 2 = 0 → exec .unpack s = .next { s with
    outBytes := [], diagExpected := [], diagActual := [], status := ⟨0, 0, 0, 0⟩,
    outRegs := unpack s.inBytes, result := BitVec.ofNat 32 (s.inBytes.length / 2) }) ∧
  ∀ s : State, s.inBytes.length % 2 = 1 → exec .unpack s = .next { s with
    outBytes := [], outRegs := [], diagExpected := [], diagActual := [], result := 0, status := ⟨1, 5, 0, 0⟩ }

/-! ## The builders -/

/-- `BUILD_READ` (42_frame_codec.md R165, with R161 and R163): the request frame, the expected response length, the
frame's CRC and the open read; or, in this order, `CATEGORY_RANGE` and `COUNT_ZERO`, with no transaction open. -/
def Obligations.BuildReadBuildsTheRequest : Prop :=
  (∀ w : CmdWord, w.extractLsb' 0 8 = 0x20#8 → decode w = .ok (.buildRead (w.extractLsb' 8 8) (w.extractLsb' 16 8)
    (w.extractLsb' 24 8) (w.extractLsb' 32 8) (w.extractLsb' 40 8))) ∧
  ∀ (s : State) (a c i p n : Byte),
    (c.toNat ≤ 7 → 1 ≤ n.toNat → exec (.buildRead a c i p n) s = .next { s with
      outRegs := [], diagExpected := [], diagActual := [], status := ⟨0, 0, 0, 0⟩,
      outBytes := [a, 0x43, c, i, p, n] ++ [(crc16 [a, 0x43, c, i, p, n]).extractLsb' 0 8,
        (crc16 [a, 0x43, c, i, p, n]).extractLsb' 8 8],
      result := crc16 [a, 0x43, c, i, p, n] ++ BitVec.ofNat 16 (5 + 2 * n.toNat),
      ctx := ⟨true, .read, n, []⟩ }) ∧
    (7 < c.toNat → exec (.buildRead a c i p n) s = .next { s with
      outBytes := [], outRegs := [], diagExpected := [], diagActual := [], result := 0, status := ⟨1, 4, 0, 0⟩,
      ctx := { s.ctx with valid := false } }) ∧
    (c.toNat ≤ 7 → n = 0 → exec (.buildRead a c i p n) s = .next { s with
      outBytes := [], outRegs := [], diagExpected := [], diagActual := [], result := 0, status := ⟨1, 2, 0, 0⟩,
      ctx := { s.ctx with valid := false } })

/-- `BUILD_WRITE` (R168, with R162, R166 and R167): the request frame of the registers in `IN_REGS`, the expected
response length, the frame's CRC and the open write; or, in this order, `CATEGORY_RANGE`, `COUNT_ZERO` and `COUNT_RANGE`,
with no transaction open. -/
def Obligations.BuildWriteBuildsTheRequest : Prop :=
  (∀ w : CmdWord, w.extractLsb' 0 8 = 0x21#8 → decode w = .ok (.buildWrite (w.extractLsb' 8 8) (w.extractLsb' 16 8)
    (w.extractLsb' 24 8) (w.extractLsb' 32 8))) ∧
  ∀ (s : State) (a c i p : Byte) (h : List Byte),
    h = [a, 0x44, c, i, p, BitVec.ofNat 8 s.inRegs.length] ++ pack s.inRegs →
    (c.toNat ≤ 7 → 1 ≤ s.inRegs.length → s.inRegs.length ≤ 127 → exec (.buildWrite a c i p) s = .next { s with
      outRegs := [], diagExpected := [], diagActual := [], status := ⟨0, 0, 0, 0⟩,
      outBytes := h ++ [(crc16 h).extractLsb' 0 8, (crc16 h).extractLsb' 8 8],
      result := crc16 h ++ BitVec.ofNat 16 (5 + 2 * s.inRegs.length),
      ctx := ⟨true, .write, BitVec.ofNat 8 s.inRegs.length, pack s.inRegs⟩ }) ∧
    (7 < c.toNat → exec (.buildWrite a c i p) s = .next { s with
      outBytes := [], outRegs := [], diagExpected := [], diagActual := [], result := 0, status := ⟨1, 4, 0, 0⟩,
      ctx := { s.ctx with valid := false } }) ∧
    (c.toNat ≤ 7 → s.inRegs = [] → exec (.buildWrite a c i p) s = .next { s with
      outBytes := [], outRegs := [], diagExpected := [], diagActual := [], result := 0, status := ⟨1, 2, 0, 0⟩,
      ctx := { s.ctx with valid := false } }) ∧
    (c.toNat ≤ 7 → 127 < s.inRegs.length → exec (.buildWrite a c i p) s = .next { s with
      outBytes := [], outRegs := [], diagExpected := [], diagActual := [], result := 0, status := ⟨1, 3, 0, 0⟩,
      ctx := { s.ctx with valid := false } })

/-- A built frame verifies: put into `IN_BYTES`, it passes `CRC_VERIFY`, and it is as long as its layout says, 8 bytes
for a read and `8 + 2n` for a write of `n` registers (30_encoding.md R71, R73). -/
def Obligations.BuiltFramesPassTheCrcCheck : Prop :=
  ∀ (i : Instr) (s t u : State),
    ((∃ a c x p n, i = .buildRead a c x p n) ∨ (∃ a c x p, i = .buildWrite a c x p)) →
    exec i s = .next t → t.status.cls = 0 → exec .crcVerify { t with inBytes := t.outBytes } = .next u →
    u.status.cls = 0 ∧ crc16 t.outBytes = 0 ∧
    (t.ctx.kind = .read → t.outBytes.length = 8) ∧
    (t.ctx.kind = .write → t.outBytes.length = 8 + 2 * s.inRegs.length)

/-! ## The parsers -/

/-- `PARSE_READ` (R175, with R170 to R174 and R183 to R185), check by check in its order; `READ_CRC_CHECK` may have
either value. In the last clause the response is as long as the request expects. The length clause
takes `IN_BYTES` within its capacity (R27), where a length fits a half of `RESULT`. -/
def Obligations.ParseReadChecksInOrder : Prop :=
  (∀ w : CmdWord, w.extractLsb' 0 8 = 0x30#8 → decode w = .ok .parseRead) ∧
  (∀ s : State, ¬(s.ctx.valid = true ∧ s.ctx.kind = .read) → exec .parseRead s = .next { s with
    outBytes := [], outRegs := [], diagExpected := [], diagActual := [], result := 0, status := ⟨1, 6, 0, 0⟩ }) ∧
  (∀ s : State, s.ctx.valid = true → s.ctx.kind = .read → s.inBytes.length < 3 → exec .parseRead s = .next { s with
    outBytes := [], outRegs := [], diagExpected := [], diagActual := [], status := ⟨2, 1, 0, 0⟩,
    result := BitVec.ofNat 32 s.inBytes.length, ctx := { s.ctx with valid := false } }) ∧
  ∀ (s : State) (b0 b1 b2 : Byte) (rest : List Byte), s.ctx.valid = true → s.ctx.kind = .read →
    s.inBytes = b0 :: b1 :: b2 :: rest →
    (b1 ≠ 0x43 → exec .parseRead s = .next { s with
      outBytes := [], outRegs := [], diagExpected := [], diagActual := [], result := 0, status := ⟨3, 1, b2, b1⟩,
      ctx := { s.ctx with valid := false } }) ∧
    (b1 = 0x43 → s.inBytes.length ≤ Config.byteBufCap → rest.length ≠ 2 * s.ctx.count.toNat + 2 → exec .parseRead s = .next { s with
      outBytes := [], outRegs := [], diagExpected := [], diagActual := [], status := ⟨4, 1, 0, 0⟩,
      result := BitVec.ofNat 16 (5 + 2 * s.ctx.count.toNat) ++ BitVec.ofNat 16 (3 + rest.length),
      ctx := { s.ctx with valid := false } }) ∧
    ∀ (data : List Byte) (lo hi : Byte), b1 = 0x43 → rest = data ++ [lo, hi] → data.length = 2 * s.ctx.count.toNat →
      exec .parseRead s = .next (
        if Config.readCrcCheck = true ∧ crc16 (b0 :: b1 :: b2 :: data) ≠ hi ++ lo then { s with
          outBytes := [], outRegs := [], diagExpected := [], diagActual := [], status := ⟨5, 1, 0, 0⟩,
          result := (hi ++ lo) ++ crc16 (b0 :: b1 :: b2 :: data), ctx := { s.ctx with valid := false } }
        else { s with
          outBytes := [], diagExpected := [], diagActual := [], status := ⟨0, 0, 0, 0⟩,
          outRegs := unpack data, result := BitVec.ofNat 32 s.ctx.count.toNat,
          ctx := { s.ctx with valid := false } })

/-- `PARSE_WRITE` (R182, with R177 to R181, R183 and R184), check by check in its order. The length clause takes `IN_BYTES`
within its capacity (R27), where a length fits a half of `RESULT`. -/
def Obligations.ParseWriteChecksInOrder : Prop :=
  (∀ w : CmdWord, w.extractLsb' 0 8 = 0x31#8 → decode w = .ok .parseWrite) ∧
  (∀ s : State, ¬(s.ctx.valid = true ∧ s.ctx.kind = .write) → exec .parseWrite s = .next { s with
    outBytes := [], outRegs := [], diagExpected := [], diagActual := [], result := 0, status := ⟨1, 6, 0, 0⟩ }) ∧
  (∀ s : State, s.ctx.valid = true → s.ctx.kind = .write → s.inBytes.length < 3 → exec .parseWrite s = .next { s with
    outBytes := [], outRegs := [], diagExpected := [], diagActual := [], status := ⟨2, 1, 0, 0⟩,
    result := BitVec.ofNat 32 s.inBytes.length, ctx := { s.ctx with valid := false } }) ∧
  ∀ (s : State) (b0 b1 b2 : Byte) (rest : List Byte), s.ctx.valid = true → s.ctx.kind = .write →
    s.inBytes = b0 :: b1 :: b2 :: rest →
    (b1 ≠ 0x44 → exec .parseWrite s = .next { s with
      outBytes := [], outRegs := [], diagExpected := [], diagActual := [], result := 0, status := ⟨3, 1, b2, b1⟩,
      ctx := { s.ctx with valid := false } }) ∧
    (b1 = 0x44 → s.inBytes.length ≤ Config.byteBufCap → rest.length ≠ b2.toNat + 2 → exec .parseWrite s = .next { s with
      outBytes := [], outRegs := [], diagExpected := [], diagActual := [], status := ⟨4, 2, 0, 0⟩,
      result := BitVec.ofNat 16 (5 + b2.toNat) ++ BitVec.ofNat 16 (3 + rest.length),
      ctx := { s.ctx with valid := false } }) ∧
    ∀ (actual : List Byte) (lo hi : Byte), b1 = 0x44 → rest = actual ++ [lo, hi] → actual.length = b2.toNat →
      (crc16 (b0 :: b1 :: b2 :: actual) ≠ hi ++ lo → exec .parseWrite s = .next { s with
        outBytes := [], outRegs := [], diagExpected := [], diagActual := [], status := ⟨5, 1, 0, 0⟩,
        result := (hi ++ lo) ++ crc16 (b0 :: b1 :: b2 :: actual), ctx := { s.ctx with valid := false } }) ∧
      (crc16 (b0 :: b1 :: b2 :: actual) = hi ++ lo → actual ≠ s.ctx.payload → exec .parseWrite s = .next { s with
        outBytes := [], outRegs := [], result := 0, status := ⟨5, 2, 0, 0⟩,
        diagExpected := s.ctx.payload, diagActual := actual, ctx := { s.ctx with valid := false } }) ∧
      (crc16 (b0 :: b1 :: b2 :: actual) = hi ++ lo → actual = s.ctx.payload → exec .parseWrite s = .next { s with
        outBytes := [], outRegs := [], diagExpected := [], diagActual := [], status := ⟨0, 0, 0, 0⟩,
        result := BitVec.ofNat 32 s.ctx.count.toNat, ctx := { s.ctx with valid := false } })

/-- A transaction is parsed at most once: whatever a `PARSE_READ` or `PARSE_WRITE` answers, the same command again finds
no context of its kind, and reports `NO_CONTEXT` (R183). -/
def Obligations.SecondParseFindsNoContext : Prop :=
  ∀ (i : Instr) (s t u : State), i = .parseRead ∨ i = .parseWrite → exec i s = .next t → exec i t = .next u →
    u.status = ⟨1, 6, 0, 0⟩ ∧ u.ctx = t.ctx

/-- A build that fails closes the open transaction (70_reset_and_hazards.md R255): no response can be parsed after it. -/
def Obligations.FailedBuildClosesTheTransaction : Prop :=
  ∀ (i j : Instr) (s t u : State),
    ((∃ a c x p n, i = .buildRead a c x p n) ∨ (∃ a c x p, i = .buildWrite a c x p)) →
    j = .parseRead ∨ j = .parseWrite → exec i s = .next t → t.status.cls ≠ 0 → exec j t = .next u →
    t.ctx.valid = false ∧ u.status = ⟨1, 6, 0, 0⟩

/-- `PARSE_READ` accepts a response exactly when it echoes the read command and carries `2 × count` data bytes, and, with
`READ_CRC_CHECK`, the right CRC; the registers are those of its data, and bytes 0 and 2 may be anything (R172 to R174,
R184, R185). -/
def Obligations.ReadAcceptedExactlyWhenWellFramed : Prop :=
  ∀ s t : State, s.ctx.valid = true → s.ctx.kind = .read → exec .parseRead s = .next t →
    (t.status.cls = 0 ↔ ∃ (b0 b2 lo hi : Byte) (rs : List Reg),
      s.inBytes = b0 :: 0x43 :: b2 :: (pack rs ++ [lo, hi]) ∧ rs.length = s.ctx.count.toNat ∧ t.outRegs = rs ∧
      (Config.readCrcCheck = true → crc16 (b0 :: 0x43 :: b2 :: pack rs) = hi ++ lo))

/-- A write is committed (R186: `CLASS` 0 after `PARSE_WRITE`) exactly when the response is, but for its address byte, the
frame that echoes the payload sent, with its length and its CRC (R176, R179 to R181). -/
def Obligations.WriteCommittedExactlyWhenEchoed : Prop :=
  ∀ s t : State, s.Inv → s.ctx.valid = true → s.ctx.kind = .write → exec .parseWrite s = .next t →
    (t.status.cls = 0 ↔ ∃ b0 : Byte, s.inBytes =
      (b0 :: 0x44 :: BitVec.ofNat 8 s.ctx.payload.length :: s.ctx.payload) ++
        crcBytes (crc16 (b0 :: 0x44 :: BitVec.ofNat 8 s.ctx.payload.length :: s.ctx.payload)))

/-- A whole read transaction, run by the host's actions: build the request, put a well-formed response carrying any `n`
registers into `IN_BYTES`, parse it. The outcome is OK, the registers come out unchanged and the transaction is closed
(V-L1-8, program P1). The queue the actions stand in is the model's own (log entry 3). -/
def Obligations.ReadTransactionReturnsTheRegisters : Prop :=
  ∀ (s : State) (w : CmdWord) (a c i p n b0 b2 : Byte) (rs : List Reg) (r : List Byte) (later : List HostAction),
    decode w = .ok (.buildRead a c i p n) → c.toNat ≤ 7 → 1 ≤ n.toNat → rs.length = n.toNat →
    r = (b0 :: 0x43 :: b2 :: pack rs) ++ crcBytes (crc16 (b0 :: 0x43 :: b2 :: pack rs)) →
    s.pending = .writeCmd w :: .writeBytes r :: .writeCmd 0x000000000030#48 :: later →
    ∃ t : State, Host.Core.run Sys2Proof.core 3 s = .next t ∧ statusWord t = 0 ∧ t.outRegs = rs ∧
      t.result = BitVec.ofNat 32 n.toNat ∧ t.ctx.valid = false ∧ t.inRegs = s.inRegs ∧ t.acc = s.acc ∧
      t.pending = later

/-- A whole write transaction, run by the host's actions: fill `IN_REGS`, build the request, put the echo of the payload
into `IN_BYTES`, parse it. The write is committed (program P2). The queue the actions stand in is the model's own (log
entry 3). -/
def Obligations.WriteTransactionCommits : Prop :=
  ∀ (s : State) (w : CmdWord) (a c i p b0 : Byte) (rs : List Reg) (h : List Byte) (later : List HostAction),
    decode w = .ok (.buildWrite a c i p) → c.toNat ≤ 7 → 1 ≤ rs.length → rs.length ≤ 127 →
    h = b0 :: 0x44 :: BitVec.ofNat 8 (2 * rs.length) :: pack rs →
    s.pending = .writeRegs rs :: .writeCmd w :: .writeBytes (h ++ crcBytes (crc16 h)) ::
      .writeCmd 0x000000000031#48 :: later →
    ∃ t : State, Host.Core.run Sys2Proof.core 4 s = .next t ∧ statusWord t = 0 ∧ t.result = BitVec.ofNat 32 rs.length ∧
      t.outBytes = [] ∧ t.outRegs = [] ∧ t.inRegs = rs ∧ t.acc = s.acc ∧ t.pending = later

/-! ## CLEAR -/

/-- `CLEAR` (43_control.md R213): every state of 10_state.md R36 takes its reset value, but `CMD` keeps the word just
written. That the host's pending actions and its readings stay is the model's choice (log entry 9). -/
def Obligations.ClearRestoresAllButCmd : Prop :=
  (∀ w : CmdWord, w.extractLsb' 0 8 = 0x0F#8 → decode w = .ok .clear) ∧
  ∀ s : State, exec .clear s = .next { s with
    status := ⟨0, 0, 0, 0⟩, result := 0, inBytes := [], inRegs := [], outBytes := [], outRegs := [],
    diagExpected := [], diagActual := [], ctx := ⟨false, .read, 0, []⟩, acc := 0xFFFF#16 }

/-! ## All commands -/

/-- Every command, from every state, ends in a next state (R210: "A command cannot hang or fail to end"). -/
def Obligations.EveryCommandCompletes : Prop :=
  ∀ (i : Instr) (s : State), ∃ t : State, exec i s = .next t

/-- What every command leaves unchanged (10_state.md R21, R28, R31, R32; 43_control.md R211): `CMD`; the input buffers, but
for `CLEAR`; `ACC`, but for the two feeds, `CRC_INIT` and `CLEAR`; `CTX`, but for the builders, the parsers and
`CLEAR`. That no command, `CLEAR` among them, touches the host's pending actions and its readings is the model's choice
(log entries 3, 4 and 9). -/
def Obligations.CommandsKeepWhatTheirRuleDoesNotName : Prop :=
  ∀ (i : Instr) (s t : State), exec i s = .next t →
    t.cmd = s.cmd ∧ t.pending = s.pending ∧ t.reads = s.reads ∧
    (i ≠ .clear → t.inBytes = s.inBytes ∧ t.inRegs = s.inRegs) ∧
    (i ∉ [.crcInit, .crcFeedBuf, .clear] → (∀ n, i ≠ .crcFeed n) → t.acc = s.acc) ∧
    (i ∉ [.clear, .parseRead, .parseWrite] → (∀ a c x p n, i ≠ .buildRead a c x p n) →
      (∀ a c x p, i ≠ .buildWrite a c x p) → t.ctx = s.ctx)

/-- No command's outcome depends on what an earlier one left in the outputs, the diagnostics, `RESULT` or `STATUS`
(43_control.md R211: "Outputs of an earlier command are therefore never mistaken for outputs of a later one";
10_state.md R34: no command reads `STATUS`). -/
def Obligations.EarlierOutputsNeverMatter : Prop :=
  ∀ (i : Instr) (s : State) (ob de da : List Byte) (or : List Reg) (res : Word32) (st : Status),
    exec i { s with
      outBytes := ob, outRegs := or, diagExpected := de, diagActual := da, result := res, status := st } = exec i s

/-- A failed command reports no outputs: "no partial-success state" (10_state.md R29, 60_exceptions.md R225). Only a
payload mismatch fills the diagnostic buffers (R30). -/
def Obligations.FailuresLeaveNoOutputs : Prop :=
  ∀ (i : Instr) (s t : State), exec i s = .next t →
    (t.status.cls ≠ 0 → t.outBytes = [] ∧ t.outRegs = []) ∧
    (¬(t.status.cls = 5 ∧ t.status.reason = 2) → t.diagExpected = [] ∧ t.diagActual = [])

/-- Errors are precise (60_exceptions.md R226): after a failed command only the report, the outputs and `CTX.valid` may
differ from the state before, and `CTX` differs only by being closed. -/
def Obligations.ErrorsArePrecise : Prop :=
  ∀ (i : Instr) (s t : State), exec i s = .next t → t.status.cls ≠ 0 →
    t = { s with
      outBytes := [], outRegs := [], diagExpected := t.diagExpected, diagActual := t.diagActual, result := t.result,
      status := t.status, ctx := t.ctx } ∧
    (t.ctx = s.ctx ∨ t.ctx = { s.ctx with valid := false })

/-- The eight commands that raise no error (60_exceptions.md R222). -/
def Obligations.EightCommandsRaiseNoError : Prop :=
  ∀ (i : Instr) (s t : State),
    i ∈ [.crcInit, .crcFeedBuf, .crcRead, .crcBlock, .pack, .clear] ∨ (∃ n, i = .crcFeed n) ∨ (∃ n, i = .tableRead n) →
    exec i s = .next t → t.status = ⟨0, 0, 0, 0⟩

/-- `STATUS` after any command holds OK or a listed pair of class and reason, and its error bytes are 0 but on a
ProtocolError (10_state.md R25, 60_exceptions.md R221). -/
def Obligations.OutcomesAreTheListedPairs : Prop :=
  ∀ (i : Instr) (s t : State), exec i s = .next t →
    (t.status.cls, t.status.reason) ∈ legalOutcomes ∧
    (t.status.cls ≠ 3 → t.status.errCode = 0 ∧ t.status.errEcho = 0)

/-! ## Runs -/

/-- The invariant holds right after reset. -/
def Obligations.InvariantHoldsAtReset : Prop :=
  State.reset.Inv

/-- Every step keeps the invariant: buffers within capacity, a context of the shape of 10_state.md R31, a listed outcome,
outputs empty after a failure, diagnostics only after a payload mismatch. -/
def Obligations.StepKeepsTheInvariant : Prop :=
  ∀ s t : State, s.Inv → step s = .next t → t.Inv

/-- A run whose host keeps its buffer writes within capacity never stops (70_reset_and_hazards.md R260: "a run of the
block cannot hang"). The queue of the host's actions is the model's own (log entry 3). -/
def Obligations.RunsOfAFittingHostNeverStop : Prop :=
  ∀ (k : Nat) (s : State), s.HostFits → ∃ t : State, Host.Core.run Sys2Proof.core k s = .next t
end

