-- ==== Sys2Proof/Laws/Config.lean ====
section
/-! SUPPORT. What the rules ask of the parameters: any value that meets these would do (00_scope.md R7, 10_state.md R27,
41_register_codec.md R143). -/

namespace Sys2Proof.Config

theorem regBufCap_allowed : 258 ≤ regBufCap ∧ regBufCap ≤ 32767 := by decide

theorem byteBufCap_eq : byteBufCap = 2 * regBufCap := rfl

end Sys2Proof.Config
end

