-- ==== Sys2Proof/Laws/Decode.lean ====
section
/-! SUPPORT. The fields of a command word put together from its fields, and the decoder on a known opcode. -/

namespace Sys2Proof

/-- The bit positions of a byte. -/
theorem byte_bit_cases {k : Nat} (h : k < 8) :
    k = 0 ∨ k = 1 ∨ k = 2 ∨ k = 3 ∨ k = 4 ∨ k = 5 ∨ k = 6 ∨ k = 7 := by omega

section Fields

variable (op a c i p n : Byte)

@[simp] theorem cmdOp_cmdWord : cmdOp (cmdWord op a c i p n) = op := by
  ext k h
  rcases byte_bit_cases h with rfl | rfl | rfl | rfl | rfl | rfl | rfl | rfl <;> simp [cmdOp, cmdWord]

@[simp] theorem cmdA_cmdWord : cmdA (cmdWord op a c i p n) = a := by
  ext k h
  rcases byte_bit_cases h with rfl | rfl | rfl | rfl | rfl | rfl | rfl | rfl <;> simp [cmdA, cmdWord]

@[simp] theorem cmdC_cmdWord : cmdC (cmdWord op a c i p n) = c := by
  ext k h
  rcases byte_bit_cases h with rfl | rfl | rfl | rfl | rfl | rfl | rfl | rfl <;> simp [cmdC, cmdWord]

@[simp] theorem cmdI_cmdWord : cmdI (cmdWord op a c i p n) = i := by
  ext k h
  rcases byte_bit_cases h with rfl | rfl | rfl | rfl | rfl | rfl | rfl | rfl <;> simp [cmdI, cmdWord]

@[simp] theorem cmdP_cmdWord : cmdP (cmdWord op a c i p n) = p := by
  ext k h
  rcases byte_bit_cases h with rfl | rfl | rfl | rfl | rfl | rfl | rfl | rfl <;> simp [cmdP, cmdWord]

@[simp] theorem cmdN_cmdWord : cmdN (cmdWord op a c i p n) = n := by
  ext k h
  rcases byte_bit_cases h with rfl | rfl | rfl | rfl | rfl | rfl | rfl | rfl <;> simp [cmdN, cmdWord]

end Fields

/-- A command word is its six fields. -/
theorem eq_cmdWord_fields (w : CmdWord) : w = cmdWord (cmdOp w) (cmdA w) (cmdC w) (cmdI w) (cmdP w) (cmdN w) := by
  apply BitVec.eq_of_getLsbD_eq
  intro k hk
  simp only [cmdWord, cmdOp, cmdA, cmdC, cmdI, cmdP, cmdN, BitVec.getLsbD_or, BitVec.getLsbD_shiftLeft,
    BitVec.getLsbD_setWidth, BitVec.getLsbD_extractLsb', hk]
  by_cases h1 : k < 8
  · simp [h1, show k < 16 by omega, show k < 24 by omega, show k < 32 by omega, show k < 40 by omega]
  by_cases h2 : k < 16
  · simp [h1, h2, show k < 24 by omega, show k < 32 by omega, show k < 40 by omega, show k - 8 < 8 by omega,
      show 8 + (k - 8) = k by omega]
    omega
  have e1 : ¬ k - 8 < 8 := by omega
  by_cases h3 : k < 24
  · simp [h1, h2, h3, e1, show k < 32 by omega, show k < 40 by omega, show k - 16 < 8 by omega,
      show 16 + (k - 16) = k by omega]
    omega
  have e2 : ¬ k - 16 < 8 := by omega
  by_cases h4 : k < 32
  · simp [h1, h2, h3, h4, e1, e2, show k < 40 by omega, show k - 24 < 8 by omega, show 24 + (k - 24) = k by omega]
    omega
  have e3 : ¬ k - 24 < 8 := by omega
  by_cases h5 : k < 40
  · simp [h1, h2, h3, h4, h5, e1, e2, e3, show k - 32 < 8 by omega, show 32 + (k - 32) = k by omega]
    omega
  · simp [h1, h2, h3, h4, h5, e1, e2, e3, show ¬ k - 32 < 8 by omega, show k - 40 < 8 by omega,
      show 40 + (k - 40) = k by omega]
    omega

/-- A byte-wide field of a masked word, where the mask keeps the field. -/
theorem field_and_ones {w m : CmdWord} {k : Nat} (h : m.extractLsb' k 8 = 0xFF#8) :
    (w &&& m).extractLsb' k 8 = w.extractLsb' k 8 := by
  rw [BitVec.extractLsb'_and, h]
  exact BitVec.and_allOnes (x := w.extractLsb' k 8)

/-- A byte-wide field of a masked word, where the mask drops the field. -/
theorem field_and_zeros {w m : CmdWord} {k : Nat} (h : m.extractLsb' k 8 = 0#8) :
    (w &&& m).extractLsb' k 8 = 0#8 := by
  rw [BitVec.extractLsb'_and, h, BitVec.and_zero]

/-! ### A word under each of the four masks of `readMask` -/

theorem and_mask_op (w : CmdWord) : w &&& 0x0000000000FF = cmdWord (cmdOp w) 0 0 0 0 0 := by
  rw [eq_cmdWord_fields (w &&& _)]
  simp (disch := decide) only [cmdOp, cmdA, cmdC, cmdI, cmdP, cmdN, field_and_ones, field_and_zeros]
  rfl

theorem and_mask_op_n (w : CmdWord) : w &&& 0xFF00000000FF = cmdWord (cmdOp w) 0 0 0 0 (cmdN w) := by
  rw [eq_cmdWord_fields (w &&& _)]
  simp (disch := decide) only [cmdOp, cmdA, cmdC, cmdI, cmdP, cmdN, field_and_ones, field_and_zeros]
  rfl

theorem and_mask_no_n (w : CmdWord) :
    w &&& 0x00FFFFFFFFFF = cmdWord (cmdOp w) (cmdA w) (cmdC w) (cmdI w) (cmdP w) 0 := by
  rw [eq_cmdWord_fields (w &&& _)]
  simp (disch := decide) only [cmdOp, cmdA, cmdC, cmdI, cmdP, cmdN, field_and_ones, field_and_zeros]
  rfl

theorem and_mask_all (w : CmdWord) :
    w &&& 0xFFFFFFFFFFFF = cmdWord (cmdOp w) (cmdA w) (cmdC w) (cmdI w) (cmdP w) (cmdN w) := by
  rw [eq_cmdWord_fields (w &&& _)]
  simp (disch := decide) only [cmdOp, cmdA, cmdC, cmdI, cmdP, cmdN, field_and_ones]

end Sys2Proof
end

