-- ==== Sys2Proof/Laws/Operands.lean ====
section
/-! SUPPORT. The small lemmas of the datapath functions: the codec, slices, the CRC and the trailing bytes of a frame. -/

namespace Sys2Proof.Machine

/-! ### Bytes of a register -/

/-- Bit `k` of a register written as its two bytes. -/
theorem getLsbD_two_bytes (hi lo : Byte) (k : Nat) :
    (hi ++ lo : Reg).getLsbD k = if k < 8 then lo.getLsbD k else hi.getLsbD (k - 8) :=
  BitVec.getLsbD_append

theorem joinBytes_eq_append (hi lo : Byte) : joinBytes hi lo = hi ++ lo := by
  apply BitVec.eq_of_getLsbD_eq
  intro k hk
  rw [getLsbD_two_bytes]
  by_cases h : k < 8
  · simp [joinBytes, h, hk]
  · simp [joinBytes, h, hk, BitVec.getLsbD_of_ge lo k (by omega)]

@[simp] theorem highByte_append (hi lo : Byte) : highByte (hi ++ lo) = hi := by
  apply BitVec.eq_of_getLsbD_eq
  intro k hk
  simp [highByte, hk, getLsbD_two_bytes]

@[simp] theorem lowByte_append (hi lo : Byte) : lowByte (hi ++ lo) = lo := by
  apply BitVec.eq_of_getLsbD_eq
  intro k hk
  simp [lowByte, hk, getLsbD_two_bytes]

@[simp] theorem append_high_low (v : Reg) : (highByte v ++ lowByte v : Reg) = v := by
  apply BitVec.eq_of_getLsbD_eq
  intro k hk
  rw [getLsbD_two_bytes]
  by_cases h : k < 8
  · simp [lowByte, h]
  · simp [highByte, h, show k - 8 < 8 by omega, show 8 + (k - 8) = k by omega]

@[simp] theorem joinBytes_high_low (v : Reg) : joinBytes (highByte v) (lowByte v) = v := by
  rw [joinBytes_eq_append, append_high_low]

/-! ### The codec -/

@[simp] theorem pack_nil : pack [] = [] := rfl
@[simp] theorem pack_cons (r : Reg) (rs : List Reg) : pack (r :: rs) = highByte r :: lowByte r :: pack rs := rfl
@[simp] theorem unpack_nil : unpack [] = [] := rfl
@[simp] theorem unpack_cons (hi lo : Byte) (s : List Byte) :
    unpack (hi :: lo :: s) = joinBytes hi lo :: unpack s := rfl

@[simp] theorem length_pack (rs : List Reg) : (pack rs).length = 2 * rs.length := by
  induction rs with
  | nil => rfl
  | cons r rs ih => simp [ih]; omega

/-- Two bytes at a time: the induction the codec follows. -/
theorem two_bytes_induction {P : List Byte → Prop} (hnil : P []) (hone : ∀ b, P [b])
    (htwo : ∀ hi lo s, P s → P (hi :: lo :: s)) : ∀ s, P s
  | [] => hnil
  | [b] => hone b
  | hi :: lo :: s => htwo hi lo s (two_bytes_induction hnil hone htwo s)

@[simp] theorem length_unpack (s : List Byte) : (unpack s).length = s.length / 2 := by
  induction s using two_bytes_induction with
  | hnil => rfl
  | hone b => simp [unpack]
  | htwo hi lo s ih => simp [ih]; omega

/-! ### The CRC -/

theorem length_crcTable_pieces :
    crcTable0.length = 32 ∧ crcTable1.length = 32 ∧ crcTable2.length = 32 ∧ crcTable3.length = 32 ∧
    crcTable4.length = 32 ∧ crcTable5.length = 32 ∧ crcTable6.length = 32 ∧ crcTable7.length = 32 :=
  ⟨rfl, rfl, rfl, rfl, rfl, rfl, rfl, rfl⟩

@[simp] theorem length_crcTable : crcTable.length = 256 := by
  obtain ⟨h0, h1, h2, h3, h4, h5, h6, h7⟩ := length_crcTable_pieces
  simp only [crcTable, List.length_append, h0, h1, h2, h3, h4, h5, h6, h7]

@[simp] theorem tableAt_zero : tableAt 0#8 = 0#16 := by decide

@[simp] theorem crcFold_nil (a : Reg) : crcFold a [] = a := rfl
@[simp] theorem crcFold_cons (a : Reg) (b : Byte) (s : List Byte) :
    crcFold a (b :: s) = crcFold (crcStep a b) s := rfl

theorem crcFold_append (a : Reg) (u v : List Byte) : crcFold a (u ++ v) = crcFold (crcFold a u) v :=
  List.foldl_append

theorem crc16_append (u v : List Byte) : crc16 (u ++ v) = crcFold (crc16 u) v :=
  crcFold_append _ u v

@[simp] theorem length_crcBytes (c : Reg) : (crcBytes c).length = 2 := rfl

theorem crcBytes_append (hi lo : Byte) : crcBytes (hi ++ lo) = [lo, hi] := by simp [crcBytes]

/-! ### Slices and trailing bytes -/

theorem exists_trailing_bytes (f : List Byte) (h : 2 ≤ f.length) : ∃ m lo hi, f = m ++ [lo, hi] := by
  have hd : (f.drop (f.length - 2)).length = 2 := by simp; omega
  match hm : f.drop (f.length - 2), hd with
  | [lo, hi], _ => exact ⟨f.take (f.length - 2), lo, hi, by rw [← hm, List.take_append_drop]⟩

@[simp] theorem computedCrc_append (m : List Byte) (lo hi : Byte) : computedCrc (m ++ [lo, hi]) = crc16 m := by
  simp [computedCrc, slice]

@[simp] theorem receivedCrc_append (m : List Byte) (lo hi : Byte) : receivedCrc (m ++ [lo, hi]) = hi ++ lo := by
  simp [receivedCrc, crcOfBytes, byteAt, joinBytes_eq_append]

@[simp] theorem crcOk_append (m : List Byte) (lo hi : Byte) :
    crcOk (m ++ [lo, hi]) = decide (crc16 m = hi ++ lo) := by
  simp only [crcOk, computedCrc_append, receivedCrc_append]
  rfl

/-- The data of a response of three header bytes, data and a CRC. -/
@[simp] theorem slice_response (b0 b1 b2 lo hi : Byte) (d : List Byte) :
    slice (b0 :: b1 :: b2 :: (d ++ [lo, hi])) 3 d.length = d := by
  simp [slice]

@[simp] theorem byteAt_one (b0 b1 : Byte) (s : List Byte) : byteAt (b0 :: b1 :: s) 1 = b1 := rfl
@[simp] theorem byteAt_two (b0 b1 b2 : Byte) (s : List Byte) : byteAt (b0 :: b1 :: b2 :: s) 2 = b2 := rfl

theorem length_slice_le (s : List Byte) (a n : Nat) : (slice s a n).length ≤ n := by
  rw [slice, List.length_take]
  exact Nat.min_le_left _ _

/-! ### Frames -/

@[simp] theorem length_withCrc (h : List Byte) : (withCrc h).length = h.length + 2 := by simp [withCrc]

@[simp] theorem length_readHeader (a c i p n : Byte) : (readHeader a c i p n).length = 6 := rfl

@[simp] theorem length_writeHeader (a c i p : Byte) (rs : List Reg) :
    (writeHeader a c i p rs).length = 6 + 2 * rs.length := by simp [writeHeader]; omega

@[simp] theorem categoryLegal_eq_false (c : Byte) : categoryLegal c = false ↔ 7 < c.toNat := by
  simp [categoryLegal]

end Sys2Proof.Machine
end

