-- ==== Sys2Proof/Laws/State.lean ====
section
/-! SUPPORT. What each update of the state leaves in each field. -/

namespace Sys2Proof.Machine.State

variable (s : State)

/-! ### setCmd -/

@[simp] theorem setCmd_cmd (w : CmdWord) : (s.setCmd w).cmd = w := rfl
@[simp] theorem setCmd_status (w : CmdWord) : (s.setCmd w).status = s.status := rfl
@[simp] theorem setCmd_result (w : CmdWord) : (s.setCmd w).result = s.result := rfl
@[simp] theorem setCmd_inBytes (w : CmdWord) : (s.setCmd w).inBytes = s.inBytes := rfl
@[simp] theorem setCmd_inRegs (w : CmdWord) : (s.setCmd w).inRegs = s.inRegs := rfl
@[simp] theorem setCmd_outBytes (w : CmdWord) : (s.setCmd w).outBytes = s.outBytes := rfl
@[simp] theorem setCmd_outRegs (w : CmdWord) : (s.setCmd w).outRegs = s.outRegs := rfl
@[simp] theorem setCmd_diagExpected (w : CmdWord) : (s.setCmd w).diagExpected = s.diagExpected := rfl
@[simp] theorem setCmd_diagActual (w : CmdWord) : (s.setCmd w).diagActual = s.diagActual := rfl
@[simp] theorem setCmd_ctx (w : CmdWord) : (s.setCmd w).ctx = s.ctx := rfl
@[simp] theorem setCmd_acc (w : CmdWord) : (s.setCmd w).acc = s.acc := rfl
@[simp] theorem setCmd_pending (w : CmdWord) : (s.setCmd w).pending = s.pending := rfl
@[simp] theorem setCmd_reads (w : CmdWord) : (s.setCmd w).reads = s.reads := rfl

/-! ### setAcc -/

@[simp] theorem setAcc_cmd (a : Reg) : (s.setAcc a).cmd = s.cmd := rfl
@[simp] theorem setAcc_status (a : Reg) : (s.setAcc a).status = s.status := rfl
@[simp] theorem setAcc_result (a : Reg) : (s.setAcc a).result = s.result := rfl
@[simp] theorem setAcc_inBytes (a : Reg) : (s.setAcc a).inBytes = s.inBytes := rfl
@[simp] theorem setAcc_inRegs (a : Reg) : (s.setAcc a).inRegs = s.inRegs := rfl
@[simp] theorem setAcc_outBytes (a : Reg) : (s.setAcc a).outBytes = s.outBytes := rfl
@[simp] theorem setAcc_outRegs (a : Reg) : (s.setAcc a).outRegs = s.outRegs := rfl
@[simp] theorem setAcc_diagExpected (a : Reg) : (s.setAcc a).diagExpected = s.diagExpected := rfl
@[simp] theorem setAcc_diagActual (a : Reg) : (s.setAcc a).diagActual = s.diagActual := rfl
@[simp] theorem setAcc_ctx (a : Reg) : (s.setAcc a).ctx = s.ctx := rfl
@[simp] theorem setAcc_acc (a : Reg) : (s.setAcc a).acc = a := rfl
@[simp] theorem setAcc_pending (a : Reg) : (s.setAcc a).pending = s.pending := rfl
@[simp] theorem setAcc_reads (a : Reg) : (s.setAcc a).reads = s.reads := rfl

/-! ### setResultLo -/

@[simp] theorem setResultLo_cmd (v : Reg) : (s.setResultLo v).cmd = s.cmd := rfl
@[simp] theorem setResultLo_status (v : Reg) : (s.setResultLo v).status = s.status := rfl
@[simp] theorem setResultLo_result (v : Reg) : (s.setResultLo v).result = s.result.extractLsb' 16 16 ++ v := rfl
@[simp] theorem setResultLo_inBytes (v : Reg) : (s.setResultLo v).inBytes = s.inBytes := rfl
@[simp] theorem setResultLo_inRegs (v : Reg) : (s.setResultLo v).inRegs = s.inRegs := rfl
@[simp] theorem setResultLo_outBytes (v : Reg) : (s.setResultLo v).outBytes = s.outBytes := rfl
@[simp] theorem setResultLo_outRegs (v : Reg) : (s.setResultLo v).outRegs = s.outRegs := rfl
@[simp] theorem setResultLo_diagExpected (v : Reg) : (s.setResultLo v).diagExpected = s.diagExpected := rfl
@[simp] theorem setResultLo_diagActual (v : Reg) : (s.setResultLo v).diagActual = s.diagActual := rfl
@[simp] theorem setResultLo_ctx (v : Reg) : (s.setResultLo v).ctx = s.ctx := rfl
@[simp] theorem setResultLo_acc (v : Reg) : (s.setResultLo v).acc = s.acc := rfl
@[simp] theorem setResultLo_pending (v : Reg) : (s.setResultLo v).pending = s.pending := rfl
@[simp] theorem setResultLo_reads (v : Reg) : (s.setResultLo v).reads = s.reads := rfl

/-! ### setResultHi -/

@[simp] theorem setResultHi_cmd (v : Reg) : (s.setResultHi v).cmd = s.cmd := rfl
@[simp] theorem setResultHi_status (v : Reg) : (s.setResultHi v).status = s.status := rfl
@[simp] theorem setResultHi_result (v : Reg) : (s.setResultHi v).result = v ++ s.result.extractLsb' 0 16 := rfl
@[simp] theorem setResultHi_inBytes (v : Reg) : (s.setResultHi v).inBytes = s.inBytes := rfl
@[simp] theorem setResultHi_inRegs (v : Reg) : (s.setResultHi v).inRegs = s.inRegs := rfl
@[simp] theorem setResultHi_outBytes (v : Reg) : (s.setResultHi v).outBytes = s.outBytes := rfl
@[simp] theorem setResultHi_outRegs (v : Reg) : (s.setResultHi v).outRegs = s.outRegs := rfl
@[simp] theorem setResultHi_diagExpected (v : Reg) : (s.setResultHi v).diagExpected = s.diagExpected := rfl
@[simp] theorem setResultHi_diagActual (v : Reg) : (s.setResultHi v).diagActual = s.diagActual := rfl
@[simp] theorem setResultHi_ctx (v : Reg) : (s.setResultHi v).ctx = s.ctx := rfl
@[simp] theorem setResultHi_acc (v : Reg) : (s.setResultHi v).acc = s.acc := rfl
@[simp] theorem setResultHi_pending (v : Reg) : (s.setResultHi v).pending = s.pending := rfl
@[simp] theorem setResultHi_reads (v : Reg) : (s.setResultHi v).reads = s.reads := rfl

/-! ### setInBytes -/

@[simp] theorem setInBytes_cmd (b : List Byte) : (s.setInBytes b).cmd = s.cmd := rfl
@[simp] theorem setInBytes_status (b : List Byte) : (s.setInBytes b).status = s.status := rfl
@[simp] theorem setInBytes_result (b : List Byte) : (s.setInBytes b).result = s.result := rfl
@[simp] theorem setInBytes_inBytes (b : List Byte) : (s.setInBytes b).inBytes = b := rfl
@[simp] theorem setInBytes_inRegs (b : List Byte) : (s.setInBytes b).inRegs = s.inRegs := rfl
@[simp] theorem setInBytes_outBytes (b : List Byte) : (s.setInBytes b).outBytes = s.outBytes := rfl
@[simp] theorem setInBytes_outRegs (b : List Byte) : (s.setInBytes b).outRegs = s.outRegs := rfl
@[simp] theorem setInBytes_diagExpected (b : List Byte) : (s.setInBytes b).diagExpected = s.diagExpected := rfl
@[simp] theorem setInBytes_diagActual (b : List Byte) : (s.setInBytes b).diagActual = s.diagActual := rfl
@[simp] theorem setInBytes_ctx (b : List Byte) : (s.setInBytes b).ctx = s.ctx := rfl
@[simp] theorem setInBytes_acc (b : List Byte) : (s.setInBytes b).acc = s.acc := rfl
@[simp] theorem setInBytes_pending (b : List Byte) : (s.setInBytes b).pending = s.pending := rfl
@[simp] theorem setInBytes_reads (b : List Byte) : (s.setInBytes b).reads = s.reads := rfl

/-! ### setInRegs -/

@[simp] theorem setInRegs_cmd (r : List Reg) : (s.setInRegs r).cmd = s.cmd := rfl
@[simp] theorem setInRegs_status (r : List Reg) : (s.setInRegs r).status = s.status := rfl
@[simp] theorem setInRegs_result (r : List Reg) : (s.setInRegs r).result = s.result := rfl
@[simp] theorem setInRegs_inBytes (r : List Reg) : (s.setInRegs r).inBytes = s.inBytes := rfl
@[simp] theorem setInRegs_inRegs (r : List Reg) : (s.setInRegs r).inRegs = r := rfl
@[simp] theorem setInRegs_outBytes (r : List Reg) : (s.setInRegs r).outBytes = s.outBytes := rfl
@[simp] theorem setInRegs_outRegs (r : List Reg) : (s.setInRegs r).outRegs = s.outRegs := rfl
@[simp] theorem setInRegs_diagExpected (r : List Reg) : (s.setInRegs r).diagExpected = s.diagExpected := rfl
@[simp] theorem setInRegs_diagActual (r : List Reg) : (s.setInRegs r).diagActual = s.diagActual := rfl
@[simp] theorem setInRegs_ctx (r : List Reg) : (s.setInRegs r).ctx = s.ctx := rfl
@[simp] theorem setInRegs_acc (r : List Reg) : (s.setInRegs r).acc = s.acc := rfl
@[simp] theorem setInRegs_pending (r : List Reg) : (s.setInRegs r).pending = s.pending := rfl
@[simp] theorem setInRegs_reads (r : List Reg) : (s.setInRegs r).reads = s.reads := rfl

/-! ### setOutBytes -/

@[simp] theorem setOutBytes_cmd (b : List Byte) : (s.setOutBytes b).cmd = s.cmd := rfl
@[simp] theorem setOutBytes_status (b : List Byte) : (s.setOutBytes b).status = s.status := rfl
@[simp] theorem setOutBytes_result (b : List Byte) : (s.setOutBytes b).result = s.result := rfl
@[simp] theorem setOutBytes_inBytes (b : List Byte) : (s.setOutBytes b).inBytes = s.inBytes := rfl
@[simp] theorem setOutBytes_inRegs (b : List Byte) : (s.setOutBytes b).inRegs = s.inRegs := rfl
@[simp] theorem setOutBytes_outBytes (b : List Byte) : (s.setOutBytes b).outBytes = b := rfl
@[simp] theorem setOutBytes_outRegs (b : List Byte) : (s.setOutBytes b).outRegs = s.outRegs := rfl
@[simp] theorem setOutBytes_diagExpected (b : List Byte) : (s.setOutBytes b).diagExpected = s.diagExpected := rfl
@[simp] theorem setOutBytes_diagActual (b : List Byte) : (s.setOutBytes b).diagActual = s.diagActual := rfl
@[simp] theorem setOutBytes_ctx (b : List Byte) : (s.setOutBytes b).ctx = s.ctx := rfl
@[simp] theorem setOutBytes_acc (b : List Byte) : (s.setOutBytes b).acc = s.acc := rfl
@[simp] theorem setOutBytes_pending (b : List Byte) : (s.setOutBytes b).pending = s.pending := rfl
@[simp] theorem setOutBytes_reads (b : List Byte) : (s.setOutBytes b).reads = s.reads := rfl

/-! ### setOutRegs -/

@[simp] theorem setOutRegs_cmd (r : List Reg) : (s.setOutRegs r).cmd = s.cmd := rfl
@[simp] theorem setOutRegs_status (r : List Reg) : (s.setOutRegs r).status = s.status := rfl
@[simp] theorem setOutRegs_result (r : List Reg) : (s.setOutRegs r).result = s.result := rfl
@[simp] theorem setOutRegs_inBytes (r : List Reg) : (s.setOutRegs r).inBytes = s.inBytes := rfl
@[simp] theorem setOutRegs_inRegs (r : List Reg) : (s.setOutRegs r).inRegs = s.inRegs := rfl
@[simp] theorem setOutRegs_outBytes (r : List Reg) : (s.setOutRegs r).outBytes = s.outBytes := rfl
@[simp] theorem setOutRegs_outRegs (r : List Reg) : (s.setOutRegs r).outRegs = r := rfl
@[simp] theorem setOutRegs_diagExpected (r : List Reg) : (s.setOutRegs r).diagExpected = s.diagExpected := rfl
@[simp] theorem setOutRegs_diagActual (r : List Reg) : (s.setOutRegs r).diagActual = s.diagActual := rfl
@[simp] theorem setOutRegs_ctx (r : List Reg) : (s.setOutRegs r).ctx = s.ctx := rfl
@[simp] theorem setOutRegs_acc (r : List Reg) : (s.setOutRegs r).acc = s.acc := rfl
@[simp] theorem setOutRegs_pending (r : List Reg) : (s.setOutRegs r).pending = s.pending := rfl
@[simp] theorem setOutRegs_reads (r : List Reg) : (s.setOutRegs r).reads = s.reads := rfl

/-! ### setDiag -/

@[simp] theorem setDiag_cmd (e a : List Byte) : (s.setDiag e a).cmd = s.cmd := rfl
@[simp] theorem setDiag_status (e a : List Byte) : (s.setDiag e a).status = s.status := rfl
@[simp] theorem setDiag_result (e a : List Byte) : (s.setDiag e a).result = s.result := rfl
@[simp] theorem setDiag_inBytes (e a : List Byte) : (s.setDiag e a).inBytes = s.inBytes := rfl
@[simp] theorem setDiag_inRegs (e a : List Byte) : (s.setDiag e a).inRegs = s.inRegs := rfl
@[simp] theorem setDiag_outBytes (e a : List Byte) : (s.setDiag e a).outBytes = s.outBytes := rfl
@[simp] theorem setDiag_outRegs (e a : List Byte) : (s.setDiag e a).outRegs = s.outRegs := rfl
@[simp] theorem setDiag_diagExpected (e a : List Byte) : (s.setDiag e a).diagExpected = e := rfl
@[simp] theorem setDiag_diagActual (e a : List Byte) : (s.setDiag e a).diagActual = a := rfl
@[simp] theorem setDiag_ctx (e a : List Byte) : (s.setDiag e a).ctx = s.ctx := rfl
@[simp] theorem setDiag_acc (e a : List Byte) : (s.setDiag e a).acc = s.acc := rfl
@[simp] theorem setDiag_pending (e a : List Byte) : (s.setDiag e a).pending = s.pending := rfl
@[simp] theorem setDiag_reads (e a : List Byte) : (s.setDiag e a).reads = s.reads := rfl

/-! ### setErr -/

@[simp] theorem setErr_cmd (code echo : Byte) : (s.setErr code echo).cmd = s.cmd := rfl
@[simp] theorem setErr_status (code echo : Byte) : (s.setErr code echo).status = { s.status with errCode := code, errEcho := echo } := rfl
@[simp] theorem setErr_result (code echo : Byte) : (s.setErr code echo).result = s.result := rfl
@[simp] theorem setErr_inBytes (code echo : Byte) : (s.setErr code echo).inBytes = s.inBytes := rfl
@[simp] theorem setErr_inRegs (code echo : Byte) : (s.setErr code echo).inRegs = s.inRegs := rfl
@[simp] theorem setErr_outBytes (code echo : Byte) : (s.setErr code echo).outBytes = s.outBytes := rfl
@[simp] theorem setErr_outRegs (code echo : Byte) : (s.setErr code echo).outRegs = s.outRegs := rfl
@[simp] theorem setErr_diagExpected (code echo : Byte) : (s.setErr code echo).diagExpected = s.diagExpected := rfl
@[simp] theorem setErr_diagActual (code echo : Byte) : (s.setErr code echo).diagActual = s.diagActual := rfl
@[simp] theorem setErr_ctx (code echo : Byte) : (s.setErr code echo).ctx = s.ctx := rfl
@[simp] theorem setErr_acc (code echo : Byte) : (s.setErr code echo).acc = s.acc := rfl
@[simp] theorem setErr_pending (code echo : Byte) : (s.setErr code echo).pending = s.pending := rfl
@[simp] theorem setErr_reads (code echo : Byte) : (s.setErr code echo).reads = s.reads := rfl

/-! ### setCtx -/

@[simp] theorem setCtx_cmd (c : Ctx) : (s.setCtx c).cmd = s.cmd := rfl
@[simp] theorem setCtx_status (c : Ctx) : (s.setCtx c).status = s.status := rfl
@[simp] theorem setCtx_result (c : Ctx) : (s.setCtx c).result = s.result := rfl
@[simp] theorem setCtx_inBytes (c : Ctx) : (s.setCtx c).inBytes = s.inBytes := rfl
@[simp] theorem setCtx_inRegs (c : Ctx) : (s.setCtx c).inRegs = s.inRegs := rfl
@[simp] theorem setCtx_outBytes (c : Ctx) : (s.setCtx c).outBytes = s.outBytes := rfl
@[simp] theorem setCtx_outRegs (c : Ctx) : (s.setCtx c).outRegs = s.outRegs := rfl
@[simp] theorem setCtx_diagExpected (c : Ctx) : (s.setCtx c).diagExpected = s.diagExpected := rfl
@[simp] theorem setCtx_diagActual (c : Ctx) : (s.setCtx c).diagActual = s.diagActual := rfl
@[simp] theorem setCtx_ctx (c : Ctx) : (s.setCtx c).ctx = c := rfl
@[simp] theorem setCtx_acc (c : Ctx) : (s.setCtx c).acc = s.acc := rfl
@[simp] theorem setCtx_pending (c : Ctx) : (s.setCtx c).pending = s.pending := rfl
@[simp] theorem setCtx_reads (c : Ctx) : (s.setCtx c).reads = s.reads := rfl

/-! ### closeCtx -/

@[simp] theorem closeCtx_cmd : (s.closeCtx).cmd = s.cmd := rfl
@[simp] theorem closeCtx_status : (s.closeCtx).status = s.status := rfl
@[simp] theorem closeCtx_result : (s.closeCtx).result = s.result := rfl
@[simp] theorem closeCtx_inBytes : (s.closeCtx).inBytes = s.inBytes := rfl
@[simp] theorem closeCtx_inRegs : (s.closeCtx).inRegs = s.inRegs := rfl
@[simp] theorem closeCtx_outBytes : (s.closeCtx).outBytes = s.outBytes := rfl
@[simp] theorem closeCtx_outRegs : (s.closeCtx).outRegs = s.outRegs := rfl
@[simp] theorem closeCtx_diagExpected : (s.closeCtx).diagExpected = s.diagExpected := rfl
@[simp] theorem closeCtx_diagActual : (s.closeCtx).diagActual = s.diagActual := rfl
@[simp] theorem closeCtx_ctx : (s.closeCtx).ctx = { s.ctx with valid := false } := rfl
@[simp] theorem closeCtx_acc : (s.closeCtx).acc = s.acc := rfl
@[simp] theorem closeCtx_pending : (s.closeCtx).pending = s.pending := rfl
@[simp] theorem closeCtx_reads : (s.closeCtx).reads = s.reads := rfl

/-! ### setPending -/

@[simp] theorem setPending_cmd (p : List HostAction) : (s.setPending p).cmd = s.cmd := rfl
@[simp] theorem setPending_status (p : List HostAction) : (s.setPending p).status = s.status := rfl
@[simp] theorem setPending_result (p : List HostAction) : (s.setPending p).result = s.result := rfl
@[simp] theorem setPending_inBytes (p : List HostAction) : (s.setPending p).inBytes = s.inBytes := rfl
@[simp] theorem setPending_inRegs (p : List HostAction) : (s.setPending p).inRegs = s.inRegs := rfl
@[simp] theorem setPending_outBytes (p : List HostAction) : (s.setPending p).outBytes = s.outBytes := rfl
@[simp] theorem setPending_outRegs (p : List HostAction) : (s.setPending p).outRegs = s.outRegs := rfl
@[simp] theorem setPending_diagExpected (p : List HostAction) : (s.setPending p).diagExpected = s.diagExpected := rfl
@[simp] theorem setPending_diagActual (p : List HostAction) : (s.setPending p).diagActual = s.diagActual := rfl
@[simp] theorem setPending_ctx (p : List HostAction) : (s.setPending p).ctx = s.ctx := rfl
@[simp] theorem setPending_acc (p : List HostAction) : (s.setPending p).acc = s.acc := rfl
@[simp] theorem setPending_pending (p : List HostAction) : (s.setPending p).pending = p := rfl
@[simp] theorem setPending_reads (p : List HostAction) : (s.setPending p).reads = s.reads := rfl

/-! ### addRead -/

@[simp] theorem addRead_cmd (v : Reading) : (s.addRead v).cmd = s.cmd := rfl
@[simp] theorem addRead_status (v : Reading) : (s.addRead v).status = s.status := rfl
@[simp] theorem addRead_result (v : Reading) : (s.addRead v).result = s.result := rfl
@[simp] theorem addRead_inBytes (v : Reading) : (s.addRead v).inBytes = s.inBytes := rfl
@[simp] theorem addRead_inRegs (v : Reading) : (s.addRead v).inRegs = s.inRegs := rfl
@[simp] theorem addRead_outBytes (v : Reading) : (s.addRead v).outBytes = s.outBytes := rfl
@[simp] theorem addRead_outRegs (v : Reading) : (s.addRead v).outRegs = s.outRegs := rfl
@[simp] theorem addRead_diagExpected (v : Reading) : (s.addRead v).diagExpected = s.diagExpected := rfl
@[simp] theorem addRead_diagActual (v : Reading) : (s.addRead v).diagActual = s.diagActual := rfl
@[simp] theorem addRead_ctx (v : Reading) : (s.addRead v).ctx = s.ctx := rfl
@[simp] theorem addRead_acc (v : Reading) : (s.addRead v).acc = s.acc := rfl
@[simp] theorem addRead_pending (v : Reading) : (s.addRead v).pending = s.pending := rfl
@[simp] theorem addRead_reads (v : Reading) : (s.addRead v).reads = s.reads ++ [v] := rfl

/-! ### startCommand -/

@[simp] theorem startCommand_cmd : (s.startCommand).cmd = s.cmd := rfl
@[simp] theorem startCommand_status : (s.startCommand).status = ⟨0, 0, 0, 0⟩ := rfl
@[simp] theorem startCommand_result : (s.startCommand).result = 0 := rfl
@[simp] theorem startCommand_inBytes : (s.startCommand).inBytes = s.inBytes := rfl
@[simp] theorem startCommand_inRegs : (s.startCommand).inRegs = s.inRegs := rfl
@[simp] theorem startCommand_outBytes : (s.startCommand).outBytes = [] := rfl
@[simp] theorem startCommand_outRegs : (s.startCommand).outRegs = [] := rfl
@[simp] theorem startCommand_diagExpected : (s.startCommand).diagExpected = [] := rfl
@[simp] theorem startCommand_diagActual : (s.startCommand).diagActual = [] := rfl
@[simp] theorem startCommand_ctx : (s.startCommand).ctx = s.ctx := rfl
@[simp] theorem startCommand_acc : (s.startCommand).acc = s.acc := rfl
@[simp] theorem startCommand_pending : (s.startCommand).pending = s.pending := rfl
@[simp] theorem startCommand_reads : (s.startCommand).reads = s.reads := rfl

/-! ### finish -/

@[simp] theorem finish_cmd : (s.finish).cmd = s.cmd := rfl
@[simp] theorem finish_status : (s.finish).status = ⟨0, 0, 0, 0⟩ := rfl
@[simp] theorem finish_result : (s.finish).result = s.result := rfl
@[simp] theorem finish_inBytes : (s.finish).inBytes = s.inBytes := rfl
@[simp] theorem finish_inRegs : (s.finish).inRegs = s.inRegs := rfl
@[simp] theorem finish_outBytes : (s.finish).outBytes = s.outBytes := rfl
@[simp] theorem finish_outRegs : (s.finish).outRegs = s.outRegs := rfl
@[simp] theorem finish_diagExpected : (s.finish).diagExpected = s.diagExpected := rfl
@[simp] theorem finish_diagActual : (s.finish).diagActual = s.diagActual := rfl
@[simp] theorem finish_ctx : (s.finish).ctx = s.ctx := rfl
@[simp] theorem finish_acc : (s.finish).acc = s.acc := rfl
@[simp] theorem finish_pending : (s.finish).pending = s.pending := rfl
@[simp] theorem finish_reads : (s.finish).reads = s.reads := rfl

/-! ### raise -/

@[simp] theorem raise_cmd (r : Reason) : (s.raise r).cmd = s.cmd := rfl
@[simp] theorem raise_status (r : Reason) : (s.raise r).status = { s.status with cls := r.cls.code, reason := r.code } := rfl
@[simp] theorem raise_result (r : Reason) : (s.raise r).result = s.result := rfl
@[simp] theorem raise_inBytes (r : Reason) : (s.raise r).inBytes = s.inBytes := rfl
@[simp] theorem raise_inRegs (r : Reason) : (s.raise r).inRegs = s.inRegs := rfl
@[simp] theorem raise_outBytes (r : Reason) : (s.raise r).outBytes = s.outBytes := rfl
@[simp] theorem raise_outRegs (r : Reason) : (s.raise r).outRegs = s.outRegs := rfl
@[simp] theorem raise_diagExpected (r : Reason) : (s.raise r).diagExpected = s.diagExpected := rfl
@[simp] theorem raise_diagActual (r : Reason) : (s.raise r).diagActual = s.diagActual := rfl
@[simp] theorem raise_ctx (r : Reason) : (s.raise r).ctx = s.ctx := rfl
@[simp] theorem raise_acc (r : Reason) : (s.raise r).acc = s.acc := rfl
@[simp] theorem raise_pending (r : Reason) : (s.raise r).pending = s.pending := rfl
@[simp] theorem raise_reads (r : Reason) : (s.raise r).reads = s.reads := rfl

/-! ### resetBlock -/

@[simp] theorem resetBlock_cmd : (s.resetBlock).cmd = 0 := rfl
@[simp] theorem resetBlock_status : (s.resetBlock).status = ⟨0, 0, 0, 0⟩ := rfl
@[simp] theorem resetBlock_result : (s.resetBlock).result = 0 := rfl
@[simp] theorem resetBlock_inBytes : (s.resetBlock).inBytes = [] := rfl
@[simp] theorem resetBlock_inRegs : (s.resetBlock).inRegs = [] := rfl
@[simp] theorem resetBlock_outBytes : (s.resetBlock).outBytes = [] := rfl
@[simp] theorem resetBlock_outRegs : (s.resetBlock).outRegs = [] := rfl
@[simp] theorem resetBlock_diagExpected : (s.resetBlock).diagExpected = [] := rfl
@[simp] theorem resetBlock_diagActual : (s.resetBlock).diagActual = [] := rfl
@[simp] theorem resetBlock_ctx : (s.resetBlock).ctx = ⟨false, .read, 0, []⟩ := rfl
@[simp] theorem resetBlock_acc : (s.resetBlock).acc = 0xFFFF := rfl
@[simp] theorem resetBlock_pending : (s.resetBlock).pending = s.pending := rfl
@[simp] theorem resetBlock_reads : (s.resetBlock).reads = s.reads := rfl

end Sys2Proof.Machine.State
end

