-- ==== Sys2Proof/Laws/Ops.lean ====
section
/-! SUPPORT. For each shared operation, what it can do, said once: `RESULT` written in halves, the two checks the parsers
share, the last steps of each parser, the builders' outputs, and one step. -/

namespace Sys2Proof.Machine

/-! ### RESULT in halves -/

theorem append_low_half (a b : Reg) : (a ++ b : Word32).extractLsb' 0 16 = b := BitVec.extractLsb'_append_eq_right

theorem append_high_half (a b : Reg) : (a ++ b : Word32).extractLsb' 16 16 = a := BitVec.extractLsb'_append_eq_left

theorem zero_high_half : (0 : Word32).extractLsb' 16 16 = 0#16 := by decide

/-- The low half alone, written after the start of a command: the high half is 0 (R26, R211). -/
theorem startCommand_setResultLo_result (s : State) (v : Reg) :
    (s.startCommand.setResultLo v).result = 0#16 ++ v := by
  rw [State.setResultLo_result, State.startCommand_result, zero_high_half]

/-- Both halves written: `RESULT_HI` above `RESULT_LO`. -/
theorem setResultHi_setResultLo (s : State) (a b : Reg) :
    (s.setResultLo a).setResultHi b = { s with result := b ++ a } := by
  simp only [State.setResultHi, State.setResultLo, append_low_half]

/-- The low half alone, after the start of a command. -/
theorem startCommand_setResultLo (s : State) (v : Reg) :
    s.startCommand.setResultLo v = { s.startCommand with result := 0#16 ++ v } := by
  simp only [State.setResultLo, State.startCommand_result, zero_high_half]

/-- `RESULT` after the CRCs of a frame are recorded: the received one above the computed one (R221). -/
theorem recordCrcs_append (s : State) (m : List Byte) (lo hi : Byte) :
    s.recordCrcs (m ++ [lo, hi]) = { s with result := (hi ++ lo : Reg) ++ crc16 m } := by
  rw [State.recordCrcs, setResultHi_setResultLo, computedCrc_append, receivedCrc_append]

/-- A half written as a number below `2 ^ 16` is the number in the whole register. -/
theorem zero_append_ofNat (n : Nat) (h : n < 65536) : (0#16 ++ BitVec.ofNat 16 n : Word32) = BitVec.ofNat 32 n := by
  apply BitVec.eq_of_toNat_eq
  have e : (0#16 ++ BitVec.ofNat 16 n : Word32).toNat = (0#16).toNat <<< 16 ||| (BitVec.ofNat 16 n).toNat :=
    BitVec.toNat_append 0#16 (BitVec.ofNat 16 n)
  rw [e]
  simp
  omega

/-! ### The checks the parsers share -/

theorem withContext_open {k : TxKind} {s : State} (hv : s.ctx.valid = true) (hk : s.ctx.kind = k)
    (body : Byte → List Byte → State → State) :
    withContext k s body = body s.ctx.count s.ctx.payload s.closeCtx := by
  simp [withContext, hv, hk]

theorem withContext_closed {k : TxKind} {s : State} (h : ¬(s.ctx.valid = true ∧ s.ctx.kind = k))
    (body : Byte → List Byte → State → State) : withContext k s body = s.raise .noContext := by
  rw [withContext, if_neg h]

/-- What the context check can do. -/
theorem withContext_cases (k : TxKind) (s : State) (body : Byte → List Byte → State → State) :
    (s.ctx.valid = true ∧ s.ctx.kind = k ∧ withContext k s body = body s.ctx.count s.ctx.payload s.closeCtx) ∨
    (¬(s.ctx.valid = true ∧ s.ctx.kind = k) ∧ withContext k s body = s.raise .noContext) := by
  by_cases h : s.ctx.valid = true ∧ s.ctx.kind = k
  · exact .inl ⟨h.1, h.2, withContext_open h.1 h.2 body⟩
  · exact .inr ⟨h, withContext_closed h body⟩

theorem withResponse_short {e : Byte} {s : State} (h : s.inBytes.length < 3) (body : List Byte → State → State) :
    withResponse e s body = (s.setResultLo (len16 s.inBytes.length)).raise .shortResponse := by
  simp [withResponse, h]

theorem withResponse_echo {e b0 b1 b2 : Byte} {s : State} {rest : List Byte} (h : s.inBytes = b0 :: b1 :: b2 :: rest)
    (he : b1 ≠ e) (body : List Byte → State → State) :
    withResponse e s body = (s.setErr b2 b1).raise .echoMismatch := by
  have hl : ¬ s.inBytes.length < 3 := by simp [h]
  rw [withResponse, if_neg hl, h]
  exact if_pos he

theorem withResponse_pass {b0 b1 b2 : Byte} {s : State} {rest : List Byte} (h : s.inBytes = b0 :: b1 :: b2 :: rest)
    (body : List Byte → State → State) : withResponse b1 s body = body (b0 :: b1 :: b2 :: rest) s := by
  have hl : ¬ s.inBytes.length < 3 := by simp [h]
  rw [withResponse, if_neg hl, h]
  exact if_neg (fun hn => hn rfl)

/-- A response of at least three bytes has its three header bytes. -/
theorem exists_response_header (r : List Byte) (h : ¬ r.length < 3) : ∃ b0 b1 b2 rest, r = b0 :: b1 :: b2 :: rest := by
  match r, h with
  | [], h => exact absurd (by simp) h
  | [_], h => exact absurd (by simp) h
  | [_, _], h => exact absurd (by simp) h
  | b0 :: b1 :: b2 :: rest, _ => exact ⟨b0, b1, b2, rest, rfl⟩

/-- What the response checks can do. -/
theorem withResponse_cases (e : Byte) (s : State) (body : List Byte → State → State) :
    (s.inBytes.length < 3 ∧ withResponse e s body = (s.setResultLo (len16 s.inBytes.length)).raise .shortResponse) ∨
    (∃ b0 b1 b2 rest, s.inBytes = b0 :: b1 :: b2 :: rest ∧
      ((b1 ≠ e ∧ withResponse e s body = (s.setErr b2 b1).raise .echoMismatch) ∨
       (b1 = e ∧ withResponse e s body = body (b0 :: b1 :: b2 :: rest) s))) := by
  by_cases h : s.inBytes.length < 3
  · exact .inl ⟨h, withResponse_short h body⟩
  · obtain ⟨b0, b1, b2, rest, hr⟩ := exists_response_header _ h
    refine .inr ⟨b0, b1, b2, rest, hr, ?_⟩
    by_cases he : b1 = e
    · subst he; exact .inr ⟨rfl, withResponse_pass hr body⟩
    · exact .inl ⟨he, withResponse_echo hr he body⟩

/-! ### The last steps of the parsers -/

theorem readResponse_length {check : Bool} {n b0 b1 b2 : Byte} {rest : List Byte} (s : State)
    (h : rest.length ≠ 2 * n.toNat + 2) : readResponse check n (b0 :: b1 :: b2 :: rest) s =
      ((s.setResultLo (len16 (3 + rest.length))).setResultHi (len16 (responseLength n.toNat))).raise .readDataLength := by
  have e : ((b0 :: b1 :: b2 :: rest).length : Int) - 5 ≠ 2 * (n.toNat : Int) := by simp; omega
  rw [readResponse, if_pos e, show (b0 :: b1 :: b2 :: rest).length = 3 + rest.length by simp; omega]

/-- A response of the expected length: the CRC check where the parameter asks for it, then the registers. -/
theorem readResponse_data {check : Bool} {n b0 b1 b2 lo hi : Byte} {d : List Byte} (s : State)
    (h : d.length = 2 * n.toNat) : readResponse check n (b0 :: b1 :: b2 :: (d ++ [lo, hi])) s =
      if check = true ∧ crc16 (b0 :: b1 :: b2 :: d) ≠ hi ++ lo then
        (s.recordCrcs (b0 :: b1 :: b2 :: (d ++ [lo, hi]))).raise .crcMismatch
      else ((s.setOutRegs (unpack d)).setResultLo (n.setWidth 16)).finish := by
  have e : ¬((b0 :: b1 :: b2 :: (d ++ [lo, hi])).length : Int) - 5 ≠ 2 * (n.toNat : Int) := by simp; omega
  have hs : slice (b0 :: b1 :: b2 :: (d ++ [lo, hi])) 3 (2 * n.toNat) = d := by rw [← h, slice_response]
  have hc := crcOk_append (b0 :: b1 :: b2 :: d) lo hi
  simp only [List.cons_append] at hc
  rw [readResponse, if_neg e, hs, hc]
  by_cases hcrc : crc16 (b0 :: b1 :: b2 :: d) = hi ++ lo <;> cases check <;> simp [hcrc]

theorem writeResponse_length {n b0 b1 b2 : Byte} {sent rest : List Byte} (s : State)
    (h : rest.length ≠ b2.toNat + 2) : writeResponse n sent (b0 :: b1 :: b2 :: rest) s =
      ((s.setResultLo (len16 (3 + rest.length))).setResultHi (len16 (5 + b2.toNat))).raise .writeDeclaredLength := by
  have e : (b2.toNat : Int) ≠ ((b0 :: b1 :: b2 :: rest).length : Int) - 5 := by simp; omega
  refine (if_pos e).trans ?_
  rw [show (b0 :: b1 :: b2 :: rest).length = 3 + rest.length by simp; omega]
  rfl

/-- A response whose declared length is right: the CRC, then the payload. -/
theorem writeResponse_data {n b0 b1 b2 lo hi : Byte} {sent d : List Byte} (s : State)
    (h : d.length = b2.toNat) : writeResponse n sent (b0 :: b1 :: b2 :: (d ++ [lo, hi])) s =
      if crc16 (b0 :: b1 :: b2 :: d) ≠ hi ++ lo then
        (s.recordCrcs (b0 :: b1 :: b2 :: (d ++ [lo, hi]))).raise .crcMismatch
      else if d ≠ sent then (s.setDiag sent d).raise .payloadMismatch
      else (s.setResultLo (n.setWidth 16)).finish := by
  have e : ¬(b2.toNat : Int) ≠ ((b0 :: b1 :: b2 :: (d ++ [lo, hi])).length : Int) - 5 := by simp; omega
  have hs : slice (b0 :: b1 :: b2 :: (d ++ [lo, hi])) 3 b2.toNat = d := by rw [← h, slice_response]
  have hc := crcOk_append (b0 :: b1 :: b2 :: d) lo hi
  simp only [List.cons_append] at hc
  refine (if_neg e).trans ?_
  by_cases hcrc : crc16 (b0 :: b1 :: b2 :: d) = hi ++ lo <;> simp [hcrc, hs, hc]

/-! ### The builders' outputs -/

theorem buildOutputs_eq (h : List Byte) (n : Nat) (c : Ctx) (s : State) : buildOutputs h n c s = { s with
    outBytes := withCrc h, result := crc16 h ++ len16 (responseLength n), ctx := c, status := ⟨0, 0, 0, 0⟩ } := by
  rw [buildOutputs, setResultHi_setResultLo]
  rfl

/-! ### One step -/

theorem step_idle {s : State} (h : s.pending = []) : step s = .next s := by simp [step, h]

theorem step_action {s : State} {a : HostAction} {rest : List HostAction} (h : s.pending = a :: rest) :
    step s = hostAct a { s with pending := rest } := by simp [step, h, State.setPending]

theorem runCommand_of_decode {w : CmdWord} {i : Instr} (h : decode w = .ok i) (s : State) :
    runCommand w s = exec i { s with cmd := w } := by simp [runCommand, h, State.setCmd]

theorem runCommand_of_error {w : CmdWord} {e : DecodeError} (h : decode w = .error e) (s : State) :
    runCommand w s = execIllegal { s with cmd := w } := by simp [runCommand, h, State.setCmd]

/-- The word the host asks about is the very next one to run. -/
theorem step_withFetchWord (s : State) (nbits w : Nat) :
    step (s.withFetchWord nbits w) = runCommand (tableWord nbits w) s := rfl

end Sys2Proof.Machine
end

