-- ==== Sys2Proof/Laws/PerInstr.lean ====
section
/-! SUPPORT. One statement about each command as syntax: its encoding carries its own opcode. -/

namespace Sys2Proof.Laws.EncodedOpcode

/-- The `OP` field of a command's word is the opcode that 30_encoding.md R80 gives the command. -/
def Statement (i : Instr) : Prop := cmdOp (encode i) = opcode i

theorem crcInit : Statement .crcInit := cmdOp_cmdWord _ _ _ _ _ _
theorem crcFeed (n : Byte) : Statement (.crcFeed n) := cmdOp_cmdWord _ _ _ _ _ _
theorem crcFeedBuf : Statement .crcFeedBuf := cmdOp_cmdWord _ _ _ _ _ _
theorem crcRead : Statement .crcRead := cmdOp_cmdWord _ _ _ _ _ _
theorem crcBlock : Statement .crcBlock := cmdOp_cmdWord _ _ _ _ _ _
theorem crcVerify : Statement .crcVerify := cmdOp_cmdWord _ _ _ _ _ _
theorem tableRead (n : Byte) : Statement (.tableRead n) := cmdOp_cmdWord _ _ _ _ _ _
theorem clear : Statement .clear := cmdOp_cmdWord _ _ _ _ _ _
theorem pack : Statement .pack := cmdOp_cmdWord _ _ _ _ _ _
theorem unpack : Statement .unpack := cmdOp_cmdWord _ _ _ _ _ _
theorem buildRead (a c i p n : Byte) : Statement (.buildRead a c i p n) := cmdOp_cmdWord _ _ _ _ _ _
theorem buildWrite (a c i p : Byte) : Statement (.buildWrite a c i p) := cmdOp_cmdWord _ _ _ _ _ _
theorem parseRead : Statement .parseRead := cmdOp_cmdWord _ _ _ _ _ _
theorem parseWrite : Statement .parseWrite := cmdOp_cmdWord _ _ _ _ _ _

end Sys2Proof.Laws.EncodedOpcode
end

