-- ==== Sys2Proof/Tests/Slice0.lean ====
section
/-! SUPPORT. Tests: words written out from 30_encoding.md, vectors of 95_test_vectors.md (each test names its row), and a
state that meets the hypotheses of each statement of Obligations.lean. -/

namespace Sys2Proof.Tests

open Sys2Proof Sys2Proof.Machine

/-- The answer is a next state of which `p` holds. -/
def runsTo (o : Answer) (p : State → Bool) : Bool :=
  match o with
  | .next t => p t
  | .fault _ => false
  | .refused _ => false

/-- Reset with the bytes `b` in `IN_BYTES`. -/
def withBytes (b : List Byte) : State := { State.reset with inBytes := b }

/-- Reset with the registers `r` in `IN_REGS`. -/
def withRegs (r : List Reg) : State := { State.reset with inRegs := r }

/-- An open read of one register (the context V-F-B1 leaves) and the response `r`. -/
def readOpen (r : List Byte) : State := { State.reset with inBytes := r, ctx := ⟨true, .read, 1, []⟩ }

/-- An open write of `0x00D2` (the context V-F-B9 leaves) and the response `r`. -/
def writeOpen (r : List Byte) : State := { State.reset with inBytes := r, ctx := ⟨true, .write, 1, [0x00, 0xD2]⟩ }

/-- Reset with the host about to act. -/
def about (a : List HostAction) : State := { State.reset with pending := a }

/-! ## Decoding: words from the table of R80, field by field (R24) -/

theorem test_decode_crcInit : decodeTableWord 48 0x000000000001 = some .crcInit := by decide
theorem test_decode_crcFeed : decodeTableWord 48 0x550000000002 = some (.crcFeed 0x55) := by decide
theorem test_decode_crcFeedBuf : decodeTableWord 48 0x000000000003 = some .crcFeedBuf := by decide
theorem test_decode_crcRead : decodeTableWord 48 0x000000000004 = some .crcRead := by decide
theorem test_decode_crcBlock : decodeTableWord 48 0x000000000005 = some .crcBlock := by decide
theorem test_decode_crcVerify : decodeTableWord 48 0x000000000006 = some .crcVerify := by decide
theorem test_decode_tableRead : decodeTableWord 48 0xFE0000000007 = some (.tableRead 0xFE) := by decide
theorem test_decode_clear : decodeTableWord 48 0x00000000000F = some .clear := by decide
theorem test_decode_pack : decodeTableWord 48 0x000000000010 = some .pack := by decide
theorem test_decode_unpack : decodeTableWord 48 0x000000000011 = some .unpack := by decide
/-- A = 0x11, C = 0x02, I = 0x33, P = 0x44, N = 0x55. -/
theorem test_decode_buildRead :
    decodeTableWord 48 0b01010101_01000100_00110011_00000010_00010001_00100000 =
      some (.buildRead 0x11 0x02 0x33 0x44 0x55) := by decide
theorem test_decode_buildWrite :
    decodeTableWord 48 0b01010101_01000100_00110011_00000010_00010001_00100001 =
      some (.buildWrite 0x11 0x02 0x33 0x44) := by decide
theorem test_decode_parseRead : decodeTableWord 48 0x000000000030 = some .parseRead := by decide
theorem test_decode_parseWrite : decodeTableWord 48 0x000000000031 = some .parseWrite := by decide

/-- Ignored fields select the same command (R80). -/
theorem test_decode_ignores :
    decodeTableWord 48 0xFFFFFFFFFF01 = some .crcInit ∧ decodeTableWord 48 0xFF1234567831 = some .parseWrite ∧
    decodeTableWord 48 0x12FFFFFFFF02 = some (.crcFeed 0x12) := by decide

/-- The ends of the ranges of R82. -/
theorem test_decode_illegal :
    ∀ op ∈ [0x00, 0x08, 0x0E, 0x12, 0x1F, 0x22, 0x2F, 0x32, 0xFF], decodeTableWord 48 op = none := by decide

/-- The `CMD` value of R84's example. -/
theorem test_encode_buildRead : encode (.buildRead 0x01 1 4 0 1) = 0x010004010120#48 := by decide

/-- The `CMD` value of V-F-B13. -/
theorem test_encode_buildWrite : encode (.buildWrite 0x01 7 0xFF 0xFF) = 0x00FFFF070121#48 := by decide

/-! ## Well-formedness: a host write beyond its buffer's capacity is ill-formed, and refused -/

theorem test_wf_command : (Instr.buildRead 0xFF 0xFF 0xFF 0xFF 0).wf = true := by decide

theorem test_wf_bytes :
    (HostAction.writeBytes (List.replicate 1024 0)).wf = true ∧
    (HostAction.writeBytes (List.replicate 1025 0)).wf = false := by
  simp only [HostAction.wf, List.length_replicate]; decide

theorem test_wf_regs :
    (HostAction.writeRegs (List.replicate 512 0)).wf = true ∧
    (HostAction.writeRegs (List.replicate 513 0)).wf = false := by
  simp only [HostAction.wf, List.length_replicate]; decide

/-! ## The functions -/

/-- V-F-C1. -/
theorem test_table :
    [0x00#8, 0x01#8, 0x02#8, 0x7F#8, 0x80#8, 0xC0#8, 0xFE#8, 0xFF#8].map tableAt =
      [0x0000#16, 0xC0C1#16, 0xC181#16, 0xE041#16, 0xA001#16, 0x5000#16, 0x8081#16, 0x4040#16] := by decide

/-- V-F-C5: ASCII "123456789". -/
theorem test_crc16_check_value : crc16 [0x31, 0x32, 0x33, 0x34, 0x35, 0x36, 0x37, 0x38, 0x39] = 0x4B37#16 := by decide

/-- V-F-C7. -/
theorem test_crc_bytes : crcBytes 0xF8C5 = [0xC5, 0xF8] ∧ crcOfBytes 0xC5 0xF8 = 0xF8C5#16 := by decide

/-- V-L1-1. -/
theorem test_codec :
    pack [0x00FA, 0x7FFF, 0x8000] = [0x00, 0xFA, 0x7F, 0xFF, 0x80, 0x00] ∧
    unpack [0x00, 0xFA, 0x7F, 0xFF, 0x80, 0x00] = [0x00FA, 0x7FFF, 0x8000] := by decide

/-! ## The commands -/

/-- R110's example. -/
theorem test_crcInit : runsTo (exec .crcInit { State.reset with acc := 0x1234 })
    (fun t => t.acc = 0xFFFF ∧ t.result = 0x0000FFFF ∧ statusWord t = 0) = true := by decide

/-- V-F-K15: a CRC command leaves an open read open. -/
theorem test_crcInit_keeps_ctx : runsTo (exec .crcInit (readOpen [])) (fun t => statusWord t = 0x00000008) = true := by
  decide

/-- V-F-K2. -/
theorem test_crcFeed : runsTo (exec (.crcFeed 0x01) State.reset)
    (fun t => t.acc = 0x807E ∧ t.result = 0x0000807E) = true := by decide

/-- P3, step 3. -/
theorem test_crcFeed_goes_on : runsTo (exec (.crcFeed 0x43) { State.reset with acc := 0x807E })
    (fun t => t.acc = 0xD141 ∧ t.result = 0x0000D141) = true := by decide

/-- P3, step 4. -/
theorem test_crcFeedBuf : runsTo (exec .crcFeedBuf { withBytes [0x01, 0x04, 0x00, 0x01] with acc := 0xD141 })
    (fun t => t.acc = 0xF8C5 ∧ t.result = 0x0000F8C5) = true := by decide

/-- V-F-K7. -/
theorem test_crcRead : runsTo (exec .crcRead { State.reset with acc := 0xF8C5 })
    (fun t => t.acc = 0xF8C5 ∧ t.result = 0x0000F8C5 ∧ t.outBytes = [0xC5, 0xF8]) = true := by decide

/-- V-F-K9. -/
theorem test_crcBlock :
    runsTo (exec .crcBlock (withBytes [0x31, 0x32, 0x33, 0x34, 0x35, 0x36, 0x37, 0x38, 0x39]))
      (fun t => t.result = 0x00004B37 ∧ t.outBytes = [0x37, 0x4B] ∧ t.acc = 0xFFFF) = true := by decide

/-- V-F-K11. -/
theorem test_crcVerify_mismatch :
    runsTo (exec .crcVerify (withBytes [0x01, 0x43, 0x00, 0x00, 0xFA, 0x8C, 0x08]))
      (fun t => statusWord t = 0x00000105 ∧ t.result = 0x088C078C) = true := by decide

/-- V-F-K12 and V-F-K13. -/
theorem test_crcVerify_short :
    runsTo (exec .crcVerify (withBytes [0xFF, 0xFF])) (fun t => statusWord t = 0 ∧ t.result = 0xFFFFFFFF) = true ∧
    runsTo (exec .crcVerify (withBytes [0x01])) (fun t => statusWord t = 0x00000701 ∧ t.result = 0) = true := by decide

/-- V-F-K14. -/
theorem test_tableRead : runsTo (exec (.tableRead 0xFE) State.reset) (fun t => t.result = 0x00008081) = true := by
  decide

/-- V-F-X4, at its last command. -/
theorem test_clear : runsTo (exec .clear { readOpen [0x01] with
      cmd := 0x00000000000F, inRegs := [0x0002], acc := 0x807E, result := 0x0000807E })
    (fun t => t = { State.reset with cmd := 0x00000000000F }) = true := by decide

/-- V-F-G1. -/
theorem test_pack : runsTo (exec .pack (withRegs [0x00FA, 0x1234]))
    (fun t => t.outBytes = [0x00, 0xFA, 0x12, 0x34] ∧ t.result = 0x00000004) = true := by decide

/-- V-F-G4. -/
theorem test_unpack : runsTo (exec .unpack (withBytes [0x00, 0xFA]))
    (fun t => t.outRegs = [0x00FA] ∧ t.result = 0x00000001) = true := by decide

/-- V-F-G6. -/
theorem test_unpack_odd : runsTo (exec .unpack (withBytes [0x00, 0xFA, 0x12]))
    (fun t => statusWord t = 0x00000501 ∧ t.outRegs = [] ∧ t.result = 0) = true := by decide

/-- V-F-B1. -/
theorem test_buildRead : runsTo (exec (.buildRead 0x01 1 4 0 1) State.reset)
    (fun t => statusWord t = 0x00000008 ∧ t.result = 0xF8C50007 ∧
      t.outBytes = [0x01, 0x43, 0x01, 0x04, 0x00, 0x01, 0xC5, 0xF8] ∧ t.ctx = ⟨true, .read, 1, []⟩) = true := by decide

/-- V-F-B8 and V-F-B6: a failed build closes the open read; the category comes before the count. -/
theorem test_buildRead_category :
    runsTo (exec (.buildRead 0x01 9 0 0 1) (readOpen [])) (fun t => statusWord t = 0x00000401) = true ∧
    runsTo (exec (.buildRead 0x01 8 0 0 0) State.reset) (fun t => statusWord t = 0x00000401) = true := by decide

/-- V-F-B10. -/
theorem test_buildWrite : runsTo (exec (.buildWrite 0x02 0 0x10 0) (withRegs [0x1234, 0xABCD]))
    (fun t => statusWord t = 0x00000018 ∧ t.result = 0xDC400009 ∧
      t.outBytes = [0x02, 0x44, 0x00, 0x10, 0x00, 0x02, 0x12, 0x34, 0xAB, 0xCD, 0x40, 0xDC] ∧
      t.ctx = ⟨true, .write, 2, [0x12, 0x34, 0xAB, 0xCD]⟩) = true := by decide

/-- V-F-B11 and V-F-B14. -/
theorem test_buildWrite_empty :
    runsTo (exec (.buildWrite 0x01 2 0 3) State.reset) (fun t => statusWord t = 0x00000201) = true ∧
    runsTo (exec (.buildWrite 0x01 8 0 3) State.reset) (fun t => statusWord t = 0x00000401) = true := by decide

/-- V-F-R9 and V-F-R10: a bad CRC under either value of `READ_CRC_CHECK`. -/
theorem test_parseRead_crc :
    (let t := parseReadWith false (readOpen [0x01, 0x43, 0x00, 0x00, 0xFA, 0x8C, 0x08]);
      statusWord t = 0 ∧ t.result = 0x00000001 ∧ t.outRegs = [0x00FA]) ∧
    (let t := parseReadWith true (readOpen [0x01, 0x43, 0x00, 0x00, 0xFA, 0x8C, 0x08]);
      statusWord t = 0x00000105 ∧ t.result = 0x088C078C ∧ t.outRegs = []) := by decide

/-- V-F-R5, V-F-R6 and V-F-R2. -/
theorem test_parseRead_errors :
    runsTo (exec .parseRead (readOpen [0x01, 0x83, 0x02, 0x11, 0x22])) (fun t => statusWord t = 0x83020103) = true ∧
    runsTo (exec .parseRead (readOpen [0x01, 0x43, 0x00]))
      (fun t => statusWord t = 0x00000104 ∧ t.result = 0x00070003) = true ∧
    runsTo (exec .parseRead (readOpen [0x01, 0x43])) (fun t => statusWord t = 0x00000102 ∧ t.result = 2) = true := by
  decide

/-- V-F-W1 and V-F-W6. -/
theorem test_parseWrite :
    runsTo (exec .parseWrite (writeOpen [0x01, 0x44, 0x02, 0x00, 0xD2, 0x2C, 0xAD]))
      (fun t => statusWord t = 0 ∧ t.result = 0x00000001) = true ∧
    runsTo (exec .parseWrite (writeOpen [0x01, 0x44, 0x02, 0x00, 0xD2, 0x2C, 0xAE]))
      (fun t => statusWord t = 0x00000105 ∧ t.result = 0xAE2CAD2C) = true := by decide

/-- V-F-W7, V-F-W4 and V-F-W11. -/
theorem test_parseWrite_errors :
    runsTo (exec .parseWrite (writeOpen [0x01, 0x44, 0x02, 0x00, 0xD3, 0xED, 0x6D]))
      (fun t => statusWord t = 0x00000205 ∧ t.diagExpected = [0x00, 0xD2] ∧ t.diagActual = [0x00, 0xD3] ∧
        t.result = 0) = true ∧
    runsTo (exec .parseWrite (writeOpen [0x01, 0x44, 0x04, 0x00, 0xD2, 0x2C, 0xAD]))
      (fun t => statusWord t = 0x00000204 ∧ t.result = 0x00090007) = true ∧
    runsTo (exec .parseWrite (readOpen [0x01, 0x44, 0x02, 0x00, 0xD2, 0x2C, 0xAD]))
      (fun t => statusWord t = 0x00000609) = true := by decide

/-- V-F-X3: an illegal command leaves the open read open. -/
theorem test_illegal : runsTo (runCommand 0x0000000000FF#48 (readOpen []))
    (fun t => statusWord t = 0x00000109 ∧ t.cmd = 0x0000000000FF ∧ t.result = 0) = true := by decide

/-! ## The step -/

/-- R110 through the fetch: the host's next action is the write of the word. -/
theorem test_step_command : runsTo (step (State.reset.withFetchWord 48 0x000000000001))
    (fun t => t.cmd = 1 ∧ t.result = 0x0000FFFF ∧ t.pending = []) = true := by decide

/-- R37: a host read returns the register. -/
theorem test_step_read : runsTo (step { readOpen [] with pending := [.read .status] })
    (fun t => t.reads = [.status 0x00000008]) = true := by decide

/-- R27: a host write beyond the capacity is refused. -/
theorem test_step_refused :
    step (about [.writeRegs (List.replicate 513 0)]) = .refused (.inRegsOverCapacity 513) := by
  simp only [step, about, hostAct, hostWriteRegs, List.length_replicate]; rfl

/-! ## A state and operands that meet the hypotheses of each statement -/

/-- Decoding: DecodeEncodeRoundTrip, DecodeReadsExactlyTheNamedBits. -/
theorem witness_decode :
    (Instr.buildRead 0xFF 7 0xFF 0xFF 0xFF).wf = true ∧
    decode 0x770300020121#48 = .ok (.buildWrite 0x01 2 0 3) ∧
    (0xFF0300020121#48 &&& readMask (.buildWrite 0x01 2 0 3) = 0x770300020121#48 &&& readMask (.buildWrite 0x01 2 0 3)) :=
  ⟨rfl, rfl, by decide⟩

/-- IllegalOpcodesAreTheListedRanges, both ways at the ends of the ranges. -/
theorem witness_illegal :
    (∀ op ∈ [0x00#8, 0x08#8, 0x0E#8, 0x12#8, 0x1F#8, 0x22#8, 0x2F#8, 0x32#8, 0xFF#8], ∀ p ∈ [0#8, 0xFF#8],
      (cmdWord op p p p p p).extractLsb' 0 8 = op) ∧
    decode 0x000000000000#48 = .error (.illegalOp 0x00) ∧ decode 0xFFFFFFFFFF0E#48 = .error (.illegalOp 0x0E) ∧
    decode 0x000000000012#48 = .error (.illegalOp 0x12) ∧ decode 0x00000000002F#48 = .error (.illegalOp 0x2F) ∧
    decode 0x0000000000FF#48 = .error (.illegalOp 0xFF) ∧ decode 0x00000000000F#48 = .ok .clear ∧
    decode 0x000000000031#48 = .ok .parseWrite :=
  ⟨by decide, rfl, rfl, rfl, rfl, rfl, rfl, rfl⟩

/-- StepRunsTheDecodedCommand. -/
theorem witness_step :
    (about [.writeCmd 0x010004010120, .reset]).pending = .writeCmd 0x010004010120 :: [.reset] ∧
    decode 0x010004010120#48 = .ok (.buildRead 0x01 1 4 0 1) ∧ (Instr.buildRead 0x01 1 4 0 1).wf = true :=
  ⟨rfl, rfl, rfl⟩

/-- IllegalCommandReportsIllegalOp. -/
theorem witness_illegal_command :
    (0x000000000000#48).extractLsb' 0 8 ∉ [0x01#8, 0x02#8, 0x03#8, 0x04#8, 0x05#8, 0x06#8, 0x07#8, 0x0F#8, 0x10#8, 0x11#8,
      0x20#8, 0x21#8, 0x30#8, 0x31#8] ∧
    (0x000000000008#48).extractLsb' 0 8 ∉ [0x01#8, 0x02#8, 0x03#8, 0x04#8, 0x05#8, 0x06#8, 0x07#8, 0x0F#8, 0x10#8, 0x11#8,
      0x20#8, 0x21#8, 0x30#8, 0x31#8] ∧
    (0xFFFFFFFFFFFF#48).extractLsb' 0 8 ∉ [0x01#8, 0x02#8, 0x03#8, 0x04#8, 0x05#8, 0x06#8, 0x07#8, 0x0F#8, 0x10#8, 0x11#8,
      0x20#8, 0x21#8, 0x30#8, 0x31#8] := by decide

/-- HostBufferWritesFitOrAreRefused: at and just beyond each capacity. -/
theorem witness_host_writes :
    (about [.writeBytes (List.replicate 1024 0)]).pending = [.writeBytes (List.replicate 1024 0)] ∧
    (List.replicate 1024 (0 : Byte)).length ≤ Config.byteBufCap ∧
    Config.byteBufCap < (List.replicate 1025 (0 : Byte)).length ∧
    (List.replicate 512 (0 : Reg)).length ≤ Config.regBufCap ∧
    Config.regBufCap < (List.replicate 513 (0 : Reg)).length := by
  simp only [about, List.length_replicate, true_and]; decide

/-- HostReadsReturnTheRegister: each of the nine registers. -/
theorem witness_host_reads : ∀ x ∈ [HostReg.cmd, .status, .result, .inBytes, .inRegs, .outBytes, .outRegs,
      .diagExpected, .diagActual],
    let s := { readOpen [0x01] with pending := [.read x] }
    s.pending = .read x :: [] ∧
    (x, reading x s) ∈ [(HostReg.cmd, Reading.cmd s.cmd), (.status, .status (statusWord s)), (.result, .result s.result),
      (.inBytes, .inBytes s.inBytes), (.inRegs, .inRegs s.inRegs), (.outBytes, .outBytes s.outBytes),
      (.outRegs, .outRegs s.outRegs), (.diagExpected, .diagExpected s.diagExpected),
      (.diagActual, .diagActual s.diagActual)] := by decide

/-- HostResetRestoresResetValues, IdleBlockKeepsItsState. -/
theorem witness_reset_idle : (about [.reset]).pending = .reset :: [] ∧ (readOpen []).pending = [] := ⟨rfl, rfl⟩

/-- CrcCheckComparesTheTrailingBytes, ZeroResidualIsTheCrcCheck: the empty message with its CRC. -/
theorem witness_crc_check : 2 ≤ ([0xFF, 0xFF] : List Byte).length ∧ crcOk [0xFF, 0xFF] = true ∧
    crcOk [0xFF, 0xFE] = false := by decide

/-- OneChangedByteChangesTheCrc; and a changed byte (V-F-W1, V-F-W7). -/
theorem witness_one_byte :
    crc16 ([0x01, 0x44] ++ 0x02 :: [0x00, 0xD2]) = crc16 ([0x01, 0x44] ++ 0x02 :: [0x00, 0xD2]) ∧
    crc16 ([0x01, 0x44, 0x02, 0x00] ++ 0xD2 :: []) ≠ crc16 ([0x01, 0x44, 0x02, 0x00] ++ 0xD3 :: []) := by decide

/-- PackPutsHighByteThenLowByte, UnpackJoinsBytePairs, PackAndUnpackAreInverse: the first and the last register. -/
theorem witness_codec :
    ([0x00FA, 0x1234] : List Reg)[0]? = some 0x00FA ∧ ([0x00FA, 0x1234] : List Reg)[1]? = some 0x1234 ∧
    ([0x00, 0xFA, 0x12, 0x34] : List Byte).length % 2 = 0 ∧
    ([0x00, 0xFA, 0x12, 0x34] : List Byte)[2 * 1]? = some 0x12 ∧
    ([0x00, 0xFA, 0x12, 0x34] : List Byte)[2 * 1 + 1]? = some 0x34 := by decide

/-- The opcode premises of the fourteen command statements, with other fields set. -/
theorem witness_opcodes :
    ∀ op ∈ [0x01#8, 0x02#8, 0x03#8, 0x04#8, 0x05#8, 0x06#8, 0x07#8, 0x0F#8, 0x10#8, 0x11#8, 0x20#8, 0x21#8, 0x30#8,
      0x31#8], (cmdWord op 0x11 0x22 0x33 0x44 0x55).extractLsb' 0 8 = op := by decide

/-- FeedingInPiecesIsFeedingTheWhole: the two pieces of V-F-K5. -/
theorem witness_feeding : State.reset.acc = 0xFFFF#16 ∧ ∃ t t' t'' : State,
    exec .crcFeedBuf { State.reset with inBytes := [0x01, 0x43, 0x01] } = .next t ∧
    exec .crcFeedBuf { t with inBytes := [0x04, 0x00, 0x01] } = .next t' ∧
    exec .crcFeedBuf { State.reset with inBytes := [0x01, 0x43, 0x01] ++ [0x04, 0x00, 0x01] } = .next t'' :=
  ⟨rfl, _, _, _, rfl, rfl, rfl⟩

/-- CrcVerifyComparesTheTrailingCrc: lengths 0, 1 and 2, a match and a mismatch. -/
theorem witness_verify :
    (withBytes []).inBytes.length < 2 ∧ (withBytes [0x01]).inBytes.length < 2 ∧
    (withBytes [0xFF, 0xFF]).inBytes = [] ++ [0xFF, 0xFF] ∧ crc16 [] = (0xFF#8 ++ 0xFF#8 : Reg) ∧
    (withBytes [0xFF, 0xFE]).inBytes = [] ++ [0xFF, 0xFE] ∧ crc16 [] ≠ (0xFE#8 ++ 0xFF#8 : Reg) := by decide

/-- OtherCommandsNeverTouchTheAccumulator, CommandsKeepWhatTheirRuleDoesNotName, OutcomesAreTheListedPairs, and every
statement about `exec i s = .next t` for any command: each command has a next state from an open read with a response. -/
theorem witness_next : ∀ i ∈ [Instr.crcInit, .crcFeed 0x01, .crcFeedBuf, .crcRead, .crcBlock, .crcVerify,
      .tableRead 0xFE, .clear, .pack, .unpack, .buildRead 0x01 1 4 0 1, .buildWrite 0x01 2 0 3, .parseRead, .parseWrite],
    runsTo (exec i (readOpen [0x01, 0x43, 0x00, 0x00, 0xFA, 0x8C, 0x07])) (fun _ => true) = true := by decide

/-- PackCommandPacksInRegs, UnpackCommandUnpacksInBytes: empty, full, and the odd lengths 1 and 1023. -/
theorem witness_codec_commands :
    (withRegs []).inRegs.length ≤ Config.regBufCap ∧ (withRegs (List.replicate 512 0)).inRegs.length ≤ Config.regBufCap ∧
    (withBytes []).inBytes.length % 2 = 0 ∧ (withBytes (List.replicate 1024 0)).inBytes.length ≤ Config.byteBufCap ∧
    (withBytes (List.replicate 1024 0)).inBytes.length % 2 = 0 ∧ (withBytes [0x7F]).inBytes.length % 2 = 1 ∧
    (withBytes (List.replicate 1023 0)).inBytes.length % 2 = 1 := by
  simp only [withRegs, withBytes, List.length_replicate]; decide

/-- BuildReadBuildsTheRequest: the categories 7 and 8, the counts 0, 1 and 255. -/
theorem witness_build_read :
    (7#8).toNat ≤ 7 ∧ 7 < (8#8).toNat ∧ 7 < (255#8).toNat ∧ 1 ≤ (1#8).toNat ∧ 1 ≤ (255#8).toNat ∧ (0#8 = 0) := by decide

/-- BuildWriteBuildsTheRequest: 0, 1, 127 and 128 registers. -/
theorem witness_build_write :
    (withRegs []).inRegs = [] ∧ 1 ≤ (withRegs [0x00D2]).inRegs.length ∧
    (withRegs (List.replicate 127 0)).inRegs.length ≤ 127 ∧ 127 < (withRegs (List.replicate 128 0)).inRegs.length := by
  simp only [withRegs, List.length_replicate]; decide

/-- BuiltFramesPassTheCrcCheck: a read and a write that build, and verify. -/
theorem witness_built :
    runsTo (exec (.buildRead 0x01 1 4 0 1) State.reset) (fun t => t.status.cls = 0 ∧ t.ctx.kind = .read ∧
      runsTo (exec .crcVerify { t with inBytes := t.outBytes }) (fun _ => true) = true) = true ∧
    runsTo (exec (.buildWrite 0x01 2 0 3) (withRegs [0x00D2])) (fun t => t.status.cls = 0 ∧ t.ctx.kind = .write ∧
      runsTo (exec .crcVerify { t with inBytes := t.outBytes }) (fun _ => true) = true) = true := by decide

/-- ParseReadChecksInOrder, each clause: no context and a write's; lengths 0 and 2; the echo; one data byte too few, and
3 bytes; the data of the right length, with a good and a bad CRC. -/
theorem witness_parse_read :
    ¬(State.reset.ctx.valid = true ∧ State.reset.ctx.kind = .read) ∧
    ¬((writeOpen []).ctx.valid = true ∧ (writeOpen []).ctx.kind = .read) ∧
    (readOpen []).ctx.valid = true ∧ (readOpen []).ctx.kind = .read ∧ (readOpen []).inBytes.length < 3 ∧
    (readOpen [0x01, 0x43]).inBytes.length < 3 ∧
    (readOpen [0x01, 0xC1, 0xC1]).inBytes = 0x01 :: 0xC1 :: 0xC1 :: [] ∧ (0xC1#8 ≠ 0x43) ∧
    (readOpen [0x01, 0x43, 0x00]).inBytes = 0x01 :: 0x43 :: 0x00 :: [] ∧
    (readOpen [0x01, 0x43, 0x00]).inBytes.length ≤ Config.byteBufCap ∧
    (([] : List Byte).length ≠ 2 * (readOpen []).ctx.count.toNat + 2) ∧
    (([0x00, 0xFA, 0x8C] : List Byte).length ≠ 2 * (readOpen []).ctx.count.toNat + 2) ∧
    (readOpen [0x01, 0x43, 0x00, 0x00, 0xFA, 0x8C, 0x07]).inBytes =
      0x01 :: 0x43 :: 0x00 :: ([0x00, 0xFA] ++ [0x8C, 0x07]) ∧
    ([0x00, 0xFA] : List Byte).length = 2 * (readOpen []).ctx.count.toNat ∧
    crc16 (0x01 :: 0x43 :: 0x00 :: [0x00, 0xFA]) = (0x07#8 ++ 0x8C#8 : Reg) ∧
    crc16 (0x01 :: 0x43 :: 0x00 :: [0x00, 0xFA]) ≠ (0x08#8 ++ 0x8C#8 : Reg) := by decide

/-- ParseWriteChecksInOrder, each clause (V-F-W1 to V-F-W7, V-F-W11). -/
theorem witness_parse_write :
    ¬((readOpen []).ctx.valid = true ∧ (readOpen []).ctx.kind = .write) ∧
    (writeOpen []).ctx.valid = true ∧ (writeOpen []).ctx.kind = .write ∧ (writeOpen [0x01, 0x44]).inBytes.length < 3 ∧
    (writeOpen [0x01, 0xC4, 0x03]).inBytes = 0x01 :: 0xC4 :: 0x03 :: [] ∧ (0xC4#8 ≠ 0x44) ∧
    (writeOpen [0x01, 0x44, 0x02, 0x00]).inBytes = 0x01 :: 0x44 :: 0x02 :: [0x00] ∧
    (writeOpen [0x01, 0x44, 0x02, 0x00]).inBytes.length ≤ Config.byteBufCap ∧
    ([0x00] : List Byte).length ≠ (2#8).toNat + 2 ∧
    (writeOpen [0x01, 0x44, 0x02, 0x00, 0xD2, 0x2C, 0xAD]).inBytes =
      0x01 :: 0x44 :: 0x02 :: ([0x00, 0xD2] ++ [0x2C, 0xAD]) ∧
    ([0x00, 0xD2] : List Byte).length = (2#8).toNat ∧
    crc16 (0x01 :: 0x44 :: 0x02 :: [0x00, 0xD2]) = (0xAD#8 ++ 0x2C#8 : Reg) ∧
    [0x00, 0xD2] = (writeOpen []).ctx.payload ∧
    crc16 (0x01 :: 0x44 :: 0x02 :: [0x00, 0xD2]) ≠ (0xAE#8 ++ 0x2C#8 : Reg) ∧
    crc16 (0x01 :: 0x44 :: 0x02 :: [0x00, 0xD3]) = (0x6D#8 ++ 0xED#8 : Reg) ∧
    [0x00, 0xD3] ≠ (writeOpen []).ctx.payload := by decide

/-- SecondParseFindsNoContext: a parse and the same again, of each kind (V-F-R15). -/
theorem witness_second_parse :
    runsTo (exec .parseRead (readOpen [0x01, 0x43, 0x00, 0x00, 0xFA, 0x8C, 0x07]))
      (fun t => runsTo (exec .parseRead t) (fun _ => true)) = true ∧
    runsTo (exec .parseWrite (writeOpen [0x01, 0x44, 0x02, 0x00, 0xD2, 0x2C, 0xAD]))
      (fun t => runsTo (exec .parseWrite t) (fun _ => true)) = true := by decide

/-- FailedBuildClosesTheTransaction: a failed build of each kind while a transaction is open, then a parse. -/
theorem witness_failed_build :
    runsTo (exec (.buildRead 0x01 9 0 0 1) (readOpen []))
      (fun t => t.status.cls ≠ 0 ∧ runsTo (exec .parseRead t) (fun _ => true) = true) = true ∧
    runsTo (exec (.buildWrite 0x01 2 0 3) (writeOpen []))
      (fun t => t.status.cls ≠ 0 ∧ runsTo (exec .parseWrite t) (fun _ => true) = true) = true := by decide

/-- ReadAcceptedExactlyWhenWellFramed: a response that is accepted whatever `READ_CRC_CHECK` is, and one that is not. -/
theorem witness_read_accepted :
    (readOpen []).ctx.valid = true ∧ (readOpen []).ctx.kind = .read ∧
    runsTo (exec .parseRead (readOpen [0x01, 0x43, 0x00, 0x00, 0xFA, 0x8C, 0x07])) (fun t => t.status.cls = 0) = true ∧
    runsTo (exec .parseRead (readOpen [0x01, 0x43, 0x00, 0x00, 0xFA, 0x8C])) (fun t => t.status.cls ≠ 0) = true := by
  decide

/-- An open write of one register meets the invariant. -/
theorem writeOpen_inv : (writeOpen [0x01, 0x44, 0x02, 0x00, 0xD2, 0x2C, 0xAD]).Inv where
  inBytes_fit := by decide
  inRegs_fit := by decide
  outBytes_fit := by decide
  outRegs_fit := by decide
  diagExpected_fit := by decide
  diagActual_fit := by decide
  ctx_shape := ⟨rfl, by decide, by decide⟩
  outcome_legal := by decide
  err_only_protocol := fun _ => ⟨rfl, rfl⟩
  failure_no_outputs := fun h => absurd rfl h
  diag_only_mismatch := fun _ => ⟨rfl, rfl⟩

/-- WriteCommittedExactlyWhenEchoed, StepKeepsTheInvariant: a committed write from a state that meets the invariant, and
the idle step from it. -/
theorem witness_write_committed : (writeOpen [0x01, 0x44, 0x02, 0x00, 0xD2, 0x2C, 0xAD]).Inv ∧
    (writeOpen []).ctx.valid = true ∧ (writeOpen []).ctx.kind = .write ∧
    runsTo (exec .parseWrite (writeOpen [0x01, 0x44, 0x02, 0x00, 0xD2, 0x2C, 0xAD])) (fun t => t.status.cls = 0) = true ∧
    runsTo (step (writeOpen [0x01, 0x44, 0x02, 0x00, 0xD2, 0x2C, 0xAD])) (fun _ => true) = true :=
  ⟨writeOpen_inv, by decide⟩

/-- ReadTransactionReturnsTheRegisters: program P1. -/
theorem witness_read_transaction :
    decode 0x010004010120#48 = .ok (.buildRead 0x01 1 4 0 1) ∧ (1#8).toNat ≤ 7 ∧ 1 ≤ (1#8).toNat ∧
    ([0x00FA] : List Reg).length = (1#8).toNat ∧
    ([0x01, 0x43, 0x00, 0x00, 0xFA, 0x8C, 0x07] : List Byte) =
      (0x01 :: 0x43 :: 0x00 :: pack [0x00FA]) ++ crcBytes (crc16 (0x01 :: 0x43 :: 0x00 :: pack [0x00FA])) ∧
    (about [.writeCmd 0x010004010120, .writeBytes [0x01, 0x43, 0x00, 0x00, 0xFA, 0x8C, 0x07],
      .writeCmd 0x000000000030]).pending = .writeCmd 0x010004010120 ::
        .writeBytes [0x01, 0x43, 0x00, 0x00, 0xFA, 0x8C, 0x07] :: .writeCmd 0x000000000030#48 :: [] :=
  ⟨rfl, by decide, by decide, rfl, by decide, rfl⟩

/-- WriteTransactionCommits: program P2, and the counts 1 and 127. -/
theorem witness_write_transaction :
    decode 0x000300020121#48 = .ok (.buildWrite 0x01 2 0 3) ∧ (2#8).toNat ≤ 7 ∧ 1 ≤ ([0x00D2] : List Reg).length ∧
    (List.replicate 127 (0 : Reg)).length ≤ 127 ∧
    ([0x01, 0x44, 0x02, 0x00, 0xD2] : List Byte) =
      0x01 :: 0x44 :: BitVec.ofNat 8 (2 * ([0x00D2] : List Reg).length) :: pack [0x00D2] ∧
    (about [.writeRegs [0x00D2], .writeCmd 0x000300020121, .writeBytes ([0x01, 0x44, 0x02, 0x00, 0xD2] ++
      crcBytes (crc16 [0x01, 0x44, 0x02, 0x00, 0xD2])), .writeCmd 0x000000000031]).pending =
        .writeRegs [0x00D2] :: .writeCmd 0x000300020121 :: .writeBytes ([0x01, 0x44, 0x02, 0x00, 0xD2] ++
          crcBytes (crc16 [0x01, 0x44, 0x02, 0x00, 0xD2])) :: .writeCmd 0x000000000031#48 :: [] :=
  ⟨rfl, by decide, by decide, by simp, by decide, rfl⟩

/-- FailuresLeaveNoOutputs, ErrorsArePrecise: a failure that is a payload mismatch, one that is not; a success. -/
theorem witness_failures :
    runsTo (exec .parseWrite (writeOpen [0x01, 0x44, 0x02, 0x00, 0xD3, 0xED, 0x6D]))
      (fun t => t.status.cls ≠ 0 ∧ t.status.cls = 5 ∧ t.status.reason = 2) = true ∧
    runsTo (exec .parseWrite (writeOpen [0x01, 0x44]))
      (fun t => t.status.cls ≠ 0 ∧ ¬(t.status.cls = 5 ∧ t.status.reason = 2)) = true ∧
    runsTo (exec .crcRead State.reset) (fun t => t.status.cls = 0) = true := by decide

/-- RunsOfAFittingHostNeverStop: a host that fills and overwrites a buffer, writes commands, reads and resets. -/
theorem witness_host_fits : (about [.writeBytes [0x01, 0x43], .writeRegs [], .writeCmd 0xFFFFFFFFFFFF, .read .status,
    .reset]).HostFits := by
  intro a h
  simp only [about, List.mem_cons, List.not_mem_nil, or_false] at h
  rcases h with rfl | rfl | rfl | rfl | rfl <;> decide

end Sys2Proof.Tests
end

/-! ## The decoder: exactly when a word decodes to a command -/

namespace Sys2Proof

theorem cmdWord_inj {op a c i p n op' a' c' i' p' n' : Byte} :
    cmdWord op a c i p n = cmdWord op' a' c' i' p' n' ↔
      op = op' ∧ a = a' ∧ c = c' ∧ i = i' ∧ p = p' ∧ n = n' := by
  constructor
  · intro h
    have hop := congrArg cmdOp h
    have ha := congrArg cmdA h
    have hc := congrArg cmdC h
    have hi := congrArg cmdI h
    have hp := congrArg cmdP h
    have hn := congrArg cmdN h
    simp only [cmdOp_cmdWord, cmdA_cmdWord, cmdC_cmdWord, cmdI_cmdWord, cmdP_cmdWord, cmdN_cmdWord] at *
    exact ⟨hop, ha, hc, hi, hp, hn⟩
  · rintro ⟨rfl, rfl, rfl, rfl, rfl, rfl⟩
    rfl

/-- Every row names `OP` (R80). -/
theorem readMask_op (i : Instr) : (readMask i).extractLsb' 0 8 = 0xFF#8 := by
  cases i <;> simp only [readMask] <;> decide

theorem cmdOp_and_readMask (w : CmdWord) (i : Instr) : cmdOp (w &&& readMask i) = cmdOp w :=
  field_and_ones (readMask_op i)

theorem cmdOp_encode (i : Instr) : cmdOp (encode i) = opcode i := by
  cases i <;> exact cmdOp_cmdWord _ _ _ _ _ _

theorem cmdOp_of_decode {w : CmdWord} {i : Instr} (h : decode w = .ok i) : cmdOp w = opcode i := by
  apply BitVec.eq_of_toNat_eq
  unfold decode at h
  split at h <;> cases h <;> assumption

/-- A word decodes to a command exactly when it spells the command's own encoding on the bits the command's row
names. -/
theorem decode_eq_ok_iff (w : CmdWord) (i : Instr) : decode w = .ok i ↔ w &&& readMask i = encode i := by
  by_cases hop : cmdOp w = opcode i
  · cases i <;> simp only [opcode] at hop <;>
      simp only [readMask, encode, and_mask_op, and_mask_op_n, and_mask_no_n, and_mask_all, cmdWord_inj] <;>
      simp [decode, hop]
  · refine iff_of_false (fun h => hop (cmdOp_of_decode h)) (fun h => hop ?_)
    rw [← cmdOp_encode, ← h, cmdOp_and_readMask]

theorem encode_and_readMask (i : Instr) : encode i &&& readMask i = encode i := by
  cases i <;> simp only [readMask, encode, and_mask_op, and_mask_op_n, and_mask_no_n, and_mask_all,
    cmdOp_cmdWord, cmdA_cmdWord, cmdC_cmdWord, cmdI_cmdWord, cmdP_cmdWord, cmdN_cmdWord]

theorem decode_encode (i : Instr) : decode (encode i) = .ok i :=
  (decode_eq_ok_iff _ _).2 (encode_and_readMask i)

end Sys2Proof

section
open Sys2Proof Sys2Proof.Machine

/-- Settles O1: the word of a command agrees with itself on the bits the decoder reads. -/
theorem decodeEncodeRoundTrip : Obligations.DecodeEncodeRoundTrip :=
  fun i _ => decode_encode i

/-- Settles O2: both halves are the two directions of `decode_eq_ok_iff`. -/
theorem decodeReadsExactlyTheNamedBits : Obligations.DecodeReadsExactlyTheNamedBits := by
  intro w i h
  have hw : w &&& readMask i = encode i := (decode_eq_ok_iff w i).1 h
  exact ⟨hw, fun w' hw' => (decode_eq_ok_iff w' i).2 (hw'.trans hw)⟩

/-- Settles O4: each word is decoded by computation. -/
theorem wordsOfTheSpecDecode : Obligations.WordsOfTheSpecDecode :=
  ⟨rfl, rfl, rfl, rfl, rfl, rfl, rfl, rfl⟩

end

/-! ## How a command ends

Each command either does its work and finishes, or raises a reason. `Completes` and `Raises` list the ways, by rule;
`exec_ends` ties them to `exec`, once, and the facts about every command follow from the list. -/

namespace Sys2Proof

/-- The two builders (42_frame_codec.md R165, R168). -/
def Instr.isBuilder : Instr → Bool
  | .buildRead .. | .buildWrite .. => true
  | _ => false

/-- The two parsers (R175, R182). -/
def Instr.isParser : Instr → Bool
  | .parseRead | .parseWrite => true
  | _ => false

end Sys2Proof

namespace Sys2Proof.Machine

/-- From `s` the command does all its work, and `u` is the state in which it then finishes. -/
inductive Completes (s : State) : Instr → State → Prop
  | crcInit : Completes s .crcInit ((s.startCommand.setAcc crcSeed).setResultLo crcSeed)
  | crcFeed (n : Byte) :
      Completes s (.crcFeed n) ((s.startCommand.setAcc (crcStep s.acc n)).setResultLo (crcStep s.acc n))
  | crcFeedBuf : Completes s .crcFeedBuf
      ((s.startCommand.setAcc (crcFold s.acc s.inBytes)).setResultLo (crcFold s.acc s.inBytes))
  | crcRead : Completes s .crcRead ((s.startCommand.setResultLo s.acc).setOutBytes (crcBytes s.acc))
  | crcBlock : Completes s .crcBlock
      ((s.startCommand.setResultLo (crc16 s.inBytes)).setOutBytes (crcBytes (crc16 s.inBytes)))
  | crcVerify (hlen : 2 ≤ s.inBytes.length) (hcrc : computedCrc s.inBytes = receivedCrc s.inBytes) :
      Completes s .crcVerify (s.startCommand.recordCrcs s.inBytes)
  | tableRead (n : Byte) : Completes s (.tableRead n) (s.startCommand.setResultLo (tableAt n))
  | clear : Completes s .clear (s.startCommand.resetBlock.setCmd s.cmd)
  | pack : Completes s .pack
      ((s.startCommand.setOutBytes (pack s.inRegs)).setResultLo (len16 (pack s.inRegs).length))
  | unpack (heven : s.inBytes.length % 2 = 0) : Completes s .unpack
      ((s.startCommand.setOutRegs (unpack s.inBytes)).setResultLo (len16 (unpack s.inBytes).length))
  | buildRead (a c i p n : Byte) (hcat : c.toNat ≤ 7) (hcount : 1 ≤ n.toNat) :
      Completes s (.buildRead a c i p n) { s.startCommand.closeCtx with
        outBytes := withCrc (readHeader a c i p n),
        result := crc16 (readHeader a c i p n) ++ len16 (responseLength n.toNat), ctx := ⟨true, .read, n, []⟩ }
  | buildWrite (a c i p : Byte) (hcat : c.toNat ≤ 7) (hpos : 1 ≤ s.inRegs.length)
      (hmax : s.inRegs.length ≤ Config.maxWriteCount) :
      Completes s (.buildWrite a c i p) { s.startCommand.closeCtx with
        outBytes := withCrc (writeHeader a c i p s.inRegs),
        result := crc16 (writeHeader a c i p s.inRegs) ++ len16 (responseLength s.inRegs.length),
        ctx := ⟨true, .write, BitVec.ofNat 8 s.inRegs.length, Machine.pack s.inRegs⟩ }
  | parseRead (hopen : s.ctx.valid = true) (hkind : s.ctx.kind = .read) : Completes s .parseRead
      ((s.startCommand.closeCtx.setOutRegs (Machine.unpack (slice s.inBytes 3 (2 * s.ctx.count.toNat)))).setResultLo
        (s.ctx.count.setWidth 16))
  | parseWrite (hopen : s.ctx.valid = true) (hkind : s.ctx.kind = .write) : Completes s .parseWrite
      (s.startCommand.closeCtx.setResultLo (s.ctx.count.setWidth 16))

/-- From `s` the command raises a reason, in the state `u`. -/
inductive Raises (s : State) : Instr → Reason → State → Prop
  | shortInput (hlen : s.inBytes.length < 2) : Raises s .crcVerify .shortInput s.startCommand
  | verifyMismatch (hlen : 2 ≤ s.inBytes.length) (hcrc : computedCrc s.inBytes ≠ receivedCrc s.inBytes) :
      Raises s .crcVerify .crcMismatch (s.startCommand.recordCrcs s.inBytes)
  | oddLength (hodd : s.inBytes.length % 2 = 1) : Raises s .unpack .oddLength s.startCommand
  | build {i : Instr} {r : Reason} (hi : i.isBuilder = true) (hr : r ∈ [.categoryRange, .countZero, .countRange]) :
      Raises s i r s.startCommand.closeCtx
  | noContext {i : Instr} (hi : i.isParser = true) : Raises s i .noContext s.startCommand
  | response {i : Instr} {r : Reason} (v : Word32) (hi : i.isParser = true) (hopen : s.ctx.valid = true)
      (hr : r ∈ [.shortResponse, .readDataLength, .writeDeclaredLength, .crcMismatch]) :
      Raises s i r { s.startCommand.closeCtx with result := v }
  | echoMismatch {i : Instr} (code echo : Byte) (hi : i.isParser = true) (hopen : s.ctx.valid = true) :
      Raises s i .echoMismatch (s.startCommand.closeCtx.setErr code echo)
  | payloadMismatch (declared : Byte) (hopen : s.ctx.valid = true) (hkind : s.ctx.kind = .write) :
      Raises s .parseWrite .payloadMismatch
        (s.startCommand.closeCtx.setDiag s.ctx.payload (slice s.inBytes 3 declared.toNat))

/-- From `s` the command ends in `t`. -/
inductive Ends (s : State) (i : Instr) : State → Prop
  | finish {u : State} (h : Completes s i u) : Ends s i u.finish
  | raise {u : State} {r : Reason} (h : Raises s i r u) : Ends s i (u.raise r)

/-! ### Every command ends in one of the listed ways -/

theorem crcVerify_ends (s : State) : ∃ t, execCrcVerify s = .next t ∧ Ends s .crcVerify t := by
  unfold execCrcVerify
  by_cases hlen : s.inBytes.length < 2
  · exact ⟨_, if_pos hlen, .raise (.shortInput hlen)⟩
  have hlen' : 2 ≤ s.inBytes.length := Nat.le_of_not_lt hlen
  by_cases hcrc : computedCrc s.inBytes = receivedCrc s.inBytes
  · exact ⟨_, by simp [hlen, hcrc], .finish (.crcVerify hlen' hcrc)⟩
  · exact ⟨_, by simp [hlen, hcrc], .raise (.verifyMismatch hlen' hcrc)⟩

theorem unpack_ends (s : State) : ∃ t, execUnpack s = .next t ∧ Ends s .unpack t := by
  unfold execUnpack
  by_cases hodd : s.inBytes.length % 2 = 1
  · exact ⟨_, if_pos hodd, .raise (.oddLength hodd)⟩
  · exact ⟨_, if_neg hodd, .finish (.unpack (by omega))⟩

/-- The outputs of a build, with the outcome written last. -/
theorem buildOutputs_eq_finish (h : List Byte) (n : Nat) (c : Ctx) (s : State) : buildOutputs h n c s =
    State.finish { s with outBytes := withCrc h, result := crc16 h ++ len16 (responseLength n), ctx := c } := by
  rw [buildOutputs_eq]
  rfl

theorem buildRead_ends (a c i p n : Byte) (s : State) :
    ∃ t, execBuildRead a c i p n s = .next t ∧ Ends s (.buildRead a c i p n) t := by
  unfold execBuildRead
  by_cases hcat : categoryLegal c = false
  · exact ⟨_, if_pos hcat, .raise (.build rfl (by simp))⟩
  by_cases hcount : n.toNat < 1
  · exact ⟨_, (if_neg hcat).trans (if_pos hcount), .raise (.build rfl (by simp))⟩
  refine ⟨_, (if_neg hcat).trans (if_neg hcount), ?_⟩
  rw [categoryLegal_eq_false] at hcat
  rw [buildOutputs_eq_finish]
  exact .finish (.buildRead a c i p n (by omega) (by omega))

theorem buildWrite_ends (a c i p : Byte) (s : State) :
    ∃ t, execBuildWrite a c i p s = .next t ∧ Ends s (.buildWrite a c i p) t := by
  unfold execBuildWrite
  by_cases hcat : categoryLegal c = false
  · exact ⟨_, if_pos hcat, .raise (.build rfl (by simp))⟩
  by_cases hzero : s.inRegs.length = 0
  · exact ⟨_, (if_neg hcat).trans (if_pos hzero), .raise (.build rfl (by simp))⟩
  by_cases hmax : Config.maxWriteCount < s.inRegs.length
  · exact ⟨_, (if_neg hcat).trans ((if_neg hzero).trans (if_pos hmax)), .raise (.build rfl (by simp))⟩
  refine ⟨_, (if_neg hcat).trans ((if_neg hzero).trans (if_neg hmax)), ?_⟩
  rw [categoryLegal_eq_false] at hcat
  rw [buildOutputs_eq_finish]
  exact .finish (.buildWrite a c i p (by omega) (by omega) (by omega))

/-- The two checks both parsers start with, R183 and R170, R171 (R177, R178): a parser ends as listed where the steps
after them do. -/
theorem parser_ends {i : Instr} {k : TxKind} {e : Byte} {s : State}
    {body : Byte → List Byte → List Byte → State → State} (hi : i.isParser = true)
    (hbody : s.ctx.valid = true → s.ctx.kind = k →
      Ends s i (body s.ctx.count s.ctx.payload s.inBytes s.startCommand.closeCtx)) :
    Ends s i (withContext k s.startCommand fun n sent u => withResponse e u fun r u => body n sent r u) := by
  rcases withContext_cases k s.startCommand _ with ⟨hopen, hkind, hctx⟩ | ⟨-, hctx⟩
  · rw [hctx]
    rcases withResponse_cases e s.startCommand.closeCtx _ with
      ⟨-, hresp⟩ | ⟨_, _, _, _, hr, ⟨-, hresp⟩ | ⟨-, hresp⟩⟩
    · rw [hresp]
      exact .raise (.response _ hi hopen (by simp))
    · rw [hresp]
      exact .raise (.echoMismatch _ _ hi hopen)
    · rw [hresp, ← hr]
      exact hbody hopen hkind
  · rw [hctx]
    exact .raise (.noContext hi)

theorem readResponse_ends (check : Bool) {s : State} (hopen : s.ctx.valid = true) (hkind : s.ctx.kind = .read) :
    Ends s .parseRead (readResponse check s.ctx.count s.inBytes s.startCommand.closeCtx) := by
  unfold readResponse
  split
  · exact .raise (.response _ rfl hopen (by simp))
  split
  · exact .raise (.response _ rfl hopen (by simp))
  · exact .finish (.parseRead hopen hkind)

theorem writeResponse_ends {s : State} (hopen : s.ctx.valid = true) (hkind : s.ctx.kind = .write) :
    Ends s .parseWrite (writeResponse s.ctx.count s.ctx.payload s.inBytes s.startCommand.closeCtx) := by
  simp only [writeResponse]
  split
  · exact .raise (.response _ rfl hopen (by simp))
  split
  · exact .raise (.response _ rfl hopen (by simp))
  split
  · exact .raise (.payloadMismatch _ hopen hkind)
  · exact .finish (.parseWrite hopen hkind)

/-- What a command can do, from every state. -/
theorem exec_ends (i : Instr) (s : State) : ∃ t, exec i s = .next t ∧ Ends s i t := by
  cases i with
  | crcInit => exact ⟨_, rfl, .finish .crcInit⟩
  | crcFeed n => exact ⟨_, rfl, .finish (.crcFeed n)⟩
  | crcFeedBuf => exact ⟨_, rfl, .finish .crcFeedBuf⟩
  | crcRead => exact ⟨_, rfl, .finish .crcRead⟩
  | crcBlock => exact ⟨_, rfl, .finish .crcBlock⟩
  | crcVerify => exact crcVerify_ends s
  | tableRead n => exact ⟨_, rfl, .finish (.tableRead n)⟩
  | clear => exact ⟨_, rfl, .finish .clear⟩
  | pack => exact ⟨_, rfl, .finish .pack⟩
  | unpack => exact unpack_ends s
  | buildRead a c x p n => exact buildRead_ends a c x p n s
  | buildWrite a c x p => exact buildWrite_ends a c x p s
  | parseRead => exact ⟨_, rfl, parser_ends rfl (readResponse_ends _)⟩
  | parseWrite => exact ⟨_, rfl, parser_ends rfl writeResponse_ends⟩

theorem ends_of_exec {i : Instr} {s t : State} (h : exec i s = .next t) : Ends s i t := by
  obtain ⟨t', ht', hends⟩ := exec_ends i s
  obtain rfl : t' = t := by rw [ht'] at h; injection h
  exact hends

/-! ### What a command that completes leaves -/

section Completes

variable {i : Instr} {s u : State} (h : Completes s i u)
include h

theorem Completes.host_side : u.cmd = s.cmd ∧ u.pending = s.pending ∧ u.reads = s.reads := by
  cases h <;> exact ⟨rfl, rfl, rfl⟩

theorem Completes.inputs_kept (hi : i ≠ .clear) : u.inBytes = s.inBytes ∧ u.inRegs = s.inRegs := by
  cases h with
  | clear => exact absurd rfl hi
  | _ => exact ⟨rfl, rfl⟩

theorem Completes.acc_kept (hi : i ∉ [.crcInit, .crcFeedBuf, .clear]) (hfeed : ∀ n, i ≠ .crcFeed n) :
    u.acc = s.acc := by
  cases h with
  | crcInit | crcFeedBuf | clear => simp at hi
  | crcFeed n => exact absurd rfl (hfeed n)
  | _ => rfl

theorem Completes.ctx_kept (hi : i ≠ .clear) (hb : i.isBuilder = false) (hp : i.isParser = false) : u.ctx = s.ctx := by
  cases h with
  | clear => exact absurd rfl hi
  | buildRead | buildWrite => cases hb
  | parseRead | parseWrite => cases hp
  | _ => rfl

theorem Completes.diag_empty : u.diagExpected = [] ∧ u.diagActual = [] := by
  cases h <;> exact ⟨rfl, rfl⟩

end Completes

/-! ### What a command that raises leaves -/

section Raises

variable {i : Instr} {r : Reason} {s u : State} (h : Raises s i r u)
include h

theorem Raises.host_side : u.cmd = s.cmd ∧ u.pending = s.pending ∧ u.reads = s.reads := by
  cases h <;> exact ⟨rfl, rfl, rfl⟩

theorem Raises.inputs_kept : u.inBytes = s.inBytes ∧ u.inRegs = s.inRegs := by
  cases h <;> exact ⟨rfl, rfl⟩

theorem Raises.acc_kept : u.acc = s.acc := by
  cases h <;> rfl

theorem Raises.ctx_kept (hb : i.isBuilder = false) (hp : i.isParser = false) : u.ctx = s.ctx := by
  cases h with
  | build hi => rw [hi] at hb; cases hb
  | response _ hi | echoMismatch _ _ hi => rw [hi] at hp; cases hp
  | payloadMismatch => cases hp
  | _ => rfl

/-- A command that raises leaves `CTX` as it was or closes it (60_exceptions.md R226). -/
theorem Raises.ctx_kept_or_closed : u.ctx = s.ctx ∨ u.ctx = { s.ctx with valid := false } := by
  cases h with
  | build | response | echoMismatch | payloadMismatch => exact .inr rfl
  | _ => exact .inl rfl

theorem Raises.outputs_empty : u.outBytes = [] ∧ u.outRegs = [] := by
  cases h <;> exact ⟨rfl, rfl⟩

theorem Raises.diag_empty (hr : r ≠ .payloadMismatch) : u.diagExpected = [] ∧ u.diagActual = [] := by
  cases h with
  | payloadMismatch => exact absurd rfl hr
  | _ => exact ⟨rfl, rfl⟩

theorem Raises.err_zero (hr : r ≠ .echoMismatch) : u.status.errCode = 0 ∧ u.status.errEcho = 0 := by
  cases h with
  | echoMismatch => exact absurd rfl hr
  | _ => exact ⟨rfl, rfl⟩

end Raises

/-! ### What every command leaves -/

theorem Reason.listed (r : Reason) : (r.cls.code, r.code) ∈ legalOutcomes := by
  cases r <;> decide

section Ends

variable {i : Instr} {s t : State} (h : Ends s i t)
include h

theorem Ends.host_side : t.cmd = s.cmd ∧ t.pending = s.pending ∧ t.reads = s.reads := by
  cases h with
  | finish h => exact h.host_side
  | raise h => exact h.host_side

theorem Ends.inputs_kept (hi : i ≠ .clear) : t.inBytes = s.inBytes ∧ t.inRegs = s.inRegs := by
  cases h with
  | finish h => exact h.inputs_kept hi
  | raise h => exact h.inputs_kept

theorem Ends.acc_kept (hi : i ∉ [.crcInit, .crcFeedBuf, .clear]) (hfeed : ∀ n, i ≠ .crcFeed n) : t.acc = s.acc := by
  cases h with
  | finish h => exact h.acc_kept hi hfeed
  | raise h => exact h.acc_kept

theorem Ends.ctx_kept (hi : i ≠ .clear) (hb : i.isBuilder = false) (hp : i.isParser = false) : t.ctx = s.ctx := by
  cases h with
  | finish h => exact h.ctx_kept hi hb hp
  | raise h => exact h.ctx_kept hb hp

theorem Ends.outcome_listed : (t.status.cls, t.status.reason) ∈ legalOutcomes := by
  cases h with
  | finish => exact List.mem_cons_self
  | raise => exact Reason.listed _

/-- Only a ProtocolError, whose one reason is the echo's mismatch, has error bytes. -/
theorem Ends.err_zero (hcls : t.status.cls ≠ 3) : t.status.errCode = 0 ∧ t.status.errEcho = 0 := by
  cases h with
  | finish => exact ⟨rfl, rfl⟩
  | raise h => exact h.err_zero (by rintro rfl; exact hcls rfl)

theorem Ends.outputs_empty (hcls : t.status.cls ≠ 0) : t.outBytes = [] ∧ t.outRegs = [] := by
  cases h with
  | finish => exact absurd rfl hcls
  | raise h => exact h.outputs_empty

theorem Ends.diag_empty (hr : ¬(t.status.cls = 5 ∧ t.status.reason = 2)) :
    t.diagExpected = [] ∧ t.diagActual = [] := by
  cases h with
  | finish h => exact h.diag_empty
  | raise h => exact h.diag_empty (by rintro rfl; exact hr ⟨rfl, rfl⟩)

end Ends

end Sys2Proof.Machine

section
open Sys2Proof Sys2Proof.Machine

/-- Settles O48: the host's side, the input buffers, `ACC` and `CTX` each by how the command ends; the two named lists of
commands are turned into `isBuilder` and `isParser`. -/
theorem commandsKeepWhatTheirRuleDoesNotName : Obligations.CommandsKeepWhatTheirRuleDoesNotName := by
  intro i s t h
  have hends : Ends s i t := ends_of_exec h
  obtain ⟨hcmd, hpending, hreads⟩ := hends.host_side
  refine ⟨hcmd, hpending, hreads, hends.inputs_kept, hends.acc_kept, fun hi hbr hbw => ?_⟩
  simp only [List.mem_cons, List.not_mem_nil, or_false, not_or] at hi
  obtain ⟨hclear, hpr, hpw⟩ := hi
  refine hends.ctx_kept hclear ?_ ?_
  · cases i with
    | buildRead a c x p n => exact absurd rfl (hbr a c x p n)
    | buildWrite a c x p => exact absurd rfl (hbw a c x p)
    | _ => rfl
  · cases i with
    | parseRead => exact absurd rfl hpr
    | parseWrite => exact absurd rfl hpw
    | _ => rfl

/-- Settles O50: a command that raises has written no output, and only the payload check has written diagnostics. -/
theorem failuresLeaveNoOutputs : Obligations.FailuresLeaveNoOutputs :=
  fun _ _ _ h => ⟨(ends_of_exec h).outputs_empty, (ends_of_exec h).diag_empty⟩

/-- Settles O53: a finished command reports OK, and every reason's codes are a listed pair. -/
theorem outcomesAreTheListedPairs : Obligations.OutcomesAreTheListedPairs :=
  fun _ _ _ h => ⟨(ends_of_exec h).outcome_listed, (ends_of_exec h).err_zero⟩

end

/-! ## The invariant -/

namespace Sys2Proof.Machine

theorem Ctx.Shape.close {c : Ctx} (h : c.Shape) : ({ c with valid := false } : Ctx).Shape := by
  obtain ⟨valid, kind, count, payload⟩ := c
  cases kind with
  | read => exact ⟨h.1, fun hv => nomatch hv⟩
  | write => exact h

theorem Ctx.shape_read {n : Byte} (h : 1 ≤ n.toNat) : (⟨true, .read, n, []⟩ : Ctx).Shape :=
  ⟨rfl, fun _ => h⟩

theorem Ctx.shape_write {rs : List Reg} (hpos : 1 ≤ rs.length) (hmax : rs.length ≤ Config.maxWriteCount) :
    (⟨true, .write, BitVec.ofNat 8 rs.length, pack rs⟩ : Ctx).Shape := by
  have hcount : (BitVec.ofNat 8 rs.length).toNat = rs.length := by
    rw [BitVec.toNat_ofNat, Nat.mod_eq_of_lt (Nat.lt_of_le_of_lt hmax (by decide))]
  simp only [Ctx.Shape, hcount, length_pack]
  exact ⟨trivial, hpos, hmax⟩

/-- The payload of a write context is at most 254 bytes long. -/
theorem Ctx.Shape.length_payload {c : Ctx} (h : c.Shape) (hkind : c.kind = .write) : c.payload.length ≤ 254 := by
  simp only [Ctx.Shape, hkind, Config.maxWriteCount] at h
  omega

/-! ### The parts of the invariant after a command -/

section Completes

variable {i : Instr} {s u : State} (h : Completes s i u)
include h

theorem Completes.inputs_fit (hs : s.Inv) :
    u.inBytes.length ≤ Config.byteBufCap ∧ u.inRegs.length ≤ Config.regBufCap := by
  cases h with
  | clear => exact ⟨Nat.zero_le _, Nat.zero_le _⟩
  | _ => exact ⟨hs.inBytes_fit, hs.inRegs_fit⟩

theorem Completes.outBytes_fit (hs : s.Inv) : u.outBytes.length ≤ Config.byteBufCap := by
  have hcap : 258 ≤ Config.regBufCap := Config.regBufCap_allowed.1
  have hbytes : Config.byteBufCap = 2 * Config.regBufCap := Config.byteBufCap_eq
  cases h with
  | crcRead | crcBlock => simp only [State.setOutBytes_outBytes, length_crcBytes]; omega
  | pack =>
    have hregs := hs.inRegs_fit
    simp only [State.setResultLo_outBytes, State.setOutBytes_outBytes, length_pack]
    omega
  | buildRead => simp only [length_withCrc, length_readHeader]; omega
  | buildWrite _ _ _ _ _ _ hmax =>
    simp only [Config.maxWriteCount, length_withCrc, length_writeHeader] at hmax ⊢
    omega
  | _ => exact Nat.zero_le _

theorem Completes.outRegs_fit (hs : s.Inv) : u.outRegs.length ≤ Config.regBufCap := by
  have hcap : 258 ≤ Config.regBufCap := Config.regBufCap_allowed.1
  have hbytes : Config.byteBufCap = 2 * Config.regBufCap := Config.byteBufCap_eq
  cases h with
  | unpack =>
    have hin := hs.inBytes_fit
    simp only [State.setResultLo_outRegs, State.setOutRegs_outRegs, length_unpack]
    omega
  | parseRead =>
    have hslice := length_slice_le s.inBytes 3 (2 * s.ctx.count.toNat)
    have hcount := s.ctx.count.isLt
    simp only [State.setResultLo_outRegs, State.setOutRegs_outRegs, length_unpack]
    omega
  | _ => exact Nat.zero_le _

theorem Completes.ctx_shape (hs : s.ctx.Shape) : u.ctx.Shape := by
  cases h with
  | clear => exact ⟨rfl, fun hv => nomatch hv⟩
  | buildRead _ _ _ _ _ _ hcount => exact Ctx.shape_read hcount
  | buildWrite _ _ _ _ _ hpos hmax => exact Ctx.shape_write hpos hmax
  | parseRead | parseWrite => exact hs.close
  | _ => exact hs

end Completes

theorem Raises.ctx_shape {i : Instr} {r : Reason} {s u : State} (h : Raises s i r u) (hs : s.ctx.Shape) :
    u.ctx.Shape := by
  rcases h.ctx_kept_or_closed with e | e <;> rw [e]
  · exact hs
  · exact hs.close

theorem Raises.diag_fit {i : Instr} {r : Reason} {s u : State} (h : Raises s i r u) (hs : s.ctx.Shape) :
    u.diagExpected.length ≤ 254 ∧ u.diagActual.length ≤ 255 := by
  cases h with
  | payloadMismatch declared hopen hkind =>
    exact ⟨hs.length_payload hkind,
      Nat.le_trans (length_slice_le _ _ _) (Nat.le_of_lt_succ declared.isLt)⟩
  | _ => exact ⟨Nat.zero_le _, Nat.zero_le _⟩

/-! ### Commands and host actions keep the invariant -/

theorem Ends.keeps_inv {i : Instr} {s t : State} (h : Ends s i t) (hs : s.Inv) : t.Inv where
  inBytes_fit := by
    cases h with
    | finish h => exact (h.inputs_fit hs).1
    | raise h => exact h.inputs_kept.1 ▸ hs.inBytes_fit
  inRegs_fit := by
    cases h with
    | finish h => exact (h.inputs_fit hs).2
    | raise h => exact h.inputs_kept.2 ▸ hs.inRegs_fit
  outBytes_fit := by
    cases h with
    | finish h => exact h.outBytes_fit hs
    | raise h => simp [h.outputs_empty]
  outRegs_fit := by
    cases h with
    | finish h => exact h.outRegs_fit hs
    | raise h => simp [h.outputs_empty]
  diagExpected_fit := by
    cases h with
    | finish h => simp [h.diag_empty]
    | raise h => exact (h.diag_fit hs.ctx_shape).1
  diagActual_fit := by
    cases h with
    | finish h => simp [h.diag_empty]
    | raise h => exact (h.diag_fit hs.ctx_shape).2
  ctx_shape := by
    cases h with
    | finish h => exact h.ctx_shape hs.ctx_shape
    | raise h => exact h.ctx_shape hs.ctx_shape
  outcome_legal := h.outcome_listed
  err_only_protocol := h.err_zero
  failure_no_outputs := h.outputs_empty
  diag_only_mismatch := h.diag_empty

theorem inv_reset : State.reset.Inv where
  inBytes_fit := Nat.zero_le _
  inRegs_fit := Nat.zero_le _
  outBytes_fit := Nat.zero_le _
  outRegs_fit := Nat.zero_le _
  diagExpected_fit := Nat.zero_le _
  diagActual_fit := Nat.zero_le _
  ctx_shape := ⟨rfl, fun hv => nomatch hv⟩
  outcome_legal := List.mem_cons_self
  err_only_protocol := fun _ => ⟨rfl, rfl⟩
  failure_no_outputs := fun _ => ⟨rfl, rfl⟩
  diag_only_mismatch := fun _ => ⟨rfl, rfl⟩

/-- The invariant says nothing of `CMD` and of the host's side. -/
theorem State.Inv.of_host_side {s : State} (hs : s.Inv) (w : CmdWord) (p : List HostAction) (v : List Reading) :
    State.Inv { s with cmd := w, pending := p, reads := v } :=
  { hs with }

theorem execIllegal_keeps_inv {s t : State} (hs : s.Inv) (h : execIllegal s = .next t) : t.Inv := by
  cases h
  exact { hs with
    outBytes_fit := Nat.zero_le _
    outRegs_fit := Nat.zero_le _
    diagExpected_fit := Nat.zero_le _
    diagActual_fit := Nat.zero_le _
    outcome_legal := Reason.listed .illegalOp
    err_only_protocol := fun _ => ⟨rfl, rfl⟩
    failure_no_outputs := fun _ => ⟨rfl, rfl⟩
    diag_only_mismatch := fun _ => ⟨rfl, rfl⟩ }

theorem runCommand_keeps_inv {w : CmdWord} {s t : State} (hs : s.Inv) (h : runCommand w s = .next t) : t.Inv := by
  have hlatched : (s.setCmd w).Inv := hs.of_host_side w s.pending s.reads
  unfold runCommand at h
  split at h
  · exact (ends_of_exec h).keeps_inv hlatched
  · exact execIllegal_keeps_inv hlatched h

theorem hostWriteBytes_next {b : List Byte} {s t : State} (h : hostWriteBytes b s = .next t) :
    b.length ≤ Config.byteBufCap ∧ t = s.setInBytes b := by
  unfold hostWriteBytes at h
  split at h <;> cases h
  exact ⟨‹_›, rfl⟩

theorem hostWriteRegs_next {r : List Reg} {s t : State} (h : hostWriteRegs r s = .next t) :
    r.length ≤ Config.regBufCap ∧ t = s.setInRegs r := by
  unfold hostWriteRegs at h
  split at h <;> cases h
  exact ⟨‹_›, rfl⟩

theorem hostAct_keeps_inv {a : HostAction} {s t : State} (hs : s.Inv) (h : hostAct a s = .next t) : t.Inv := by
  cases a with
  | writeBytes b =>
    obtain ⟨hfit, rfl⟩ := hostWriteBytes_next h
    exact { hs with inBytes_fit := hfit }
  | writeRegs r =>
    obtain ⟨hfit, rfl⟩ := hostWriteRegs_next h
    exact { hs with inRegs_fit := hfit }
  | writeCmd w => exact runCommand_keeps_inv hs h
  | read x =>
    cases h
    exact hs.of_host_side _ _ _
  | reset =>
    cases h
    exact inv_reset.of_host_side _ _ _

theorem step_keeps_inv {s t : State} (hs : s.Inv) (h : step s = .next t) : t.Inv := by
  cases hp : s.pending with
  | nil =>
    rw [step_idle hp] at h
    cases h
    exact hs
  | cons a rest =>
    rw [step_action hp] at h
    exact hostAct_keeps_inv (hs.of_host_side s.cmd rest s.reads) h

/-! ## Runs of a host whose writes fit -/

theorem exec_keeps_pending (i : Instr) (s : State) : ∃ t, exec i s = .next t ∧ t.pending = s.pending := by
  obtain ⟨t, ht, hends⟩ := exec_ends i s
  exact ⟨t, ht, hends.host_side.2.1⟩

theorem runCommand_keeps_pending (w : CmdWord) (s : State) : ∃ t, runCommand w s = .next t ∧ t.pending = s.pending := by
  unfold runCommand
  split
  · exact exec_keeps_pending _ (s.setCmd w)
  · exact ⟨_, rfl, rfl⟩

/-- A host action that meets its precondition takes effect, and leaves the actions after it. -/
theorem hostAct_keeps_pending {a : HostAction} (ha : a.wf = true) (s : State) :
    ∃ t, hostAct a s = .next t ∧ t.pending = s.pending := by
  cases a with
  | writeBytes b => exact ⟨_, if_pos (of_decide_eq_true ha), rfl⟩
  | writeRegs r => exact ⟨_, if_pos (of_decide_eq_true ha), rfl⟩
  | writeCmd w => exact runCommand_keeps_pending w s
  | read x => exact ⟨_, rfl, rfl⟩
  | reset => exact ⟨_, rfl, rfl⟩

theorem State.HostFits.step {s : State} (hs : s.HostFits) : ∃ t, step s = .next t ∧ t.HostFits := by
  cases hp : s.pending with
  | nil => exact ⟨s, step_idle hp, hs⟩
  | cons a rest =>
    rw [State.HostFits, hp, List.forall_mem_cons] at hs
    obtain ⟨ha, hrest⟩ := hs
    obtain ⟨t, ht, htp⟩ := hostAct_keeps_pending ha { s with pending := rest }
    refine ⟨t, (step_action hp).trans ht, ?_⟩
    rw [State.HostFits, htp]
    exact hrest

theorem run_succ {s t : State} (h : step s = .next t) (k : Nat) :
    Host.Core.run core (k + 1) s = Host.Core.run core k t := by
  have hcore : core.step s = .next t := h
  simp only [Host.Core.run, hcore]

theorem State.HostFits.run (k : Nat) : ∀ {s : State}, s.HostFits → ∃ t : State, Host.Core.run core k s = .next t := by
  induction k with
  | zero => exact fun {s} _ => ⟨s, rfl⟩
  | succ k ih =>
    intro s hs
    obtain ⟨u, hu, hfits⟩ := hs.step
    obtain ⟨t, ht⟩ := ih hfits
    exact ⟨t, (run_succ hu k).trans ht⟩

end Sys2Proof.Machine

section
open Sys2Proof Sys2Proof.Machine

/-- Settles O54: at reset every buffer is empty and the outcome is OK. -/
theorem invariantHoldsAtReset : Obligations.InvariantHoldsAtReset :=
  inv_reset

/-- Settles O55: by the host action the step takes; a command keeps each part of the invariant by how it ends. -/
theorem stepKeepsTheInvariant : Obligations.StepKeepsTheInvariant :=
  fun _ _ => step_keeps_inv

/-- Settles O56, by induction on the number of steps: each step of a fitting host has a next state, whose host fits. -/
theorem runsOfAFittingHostNeverStop : Obligations.RunsOfAFittingHostNeverStop :=
  fun k _ hs => hs.run k

end

/-! ## What no command reads -/

namespace Sys2Proof

/-- The commands that neither read nor write `ACC`: all but the incremental interface (10_state.md R32) and `CLEAR`. -/
def Instr.neverUsesAcc : Instr → Bool
  | .crcInit | .crcFeed _ | .crcFeedBuf | .crcRead | .clear => false
  | _ => true

end Sys2Proof

namespace Sys2Proof.Machine

/-! ### Earlier outputs -/

/-- Every command clears the outputs, the diagnostics, `RESULT` and `STATUS` before it reads anything (43_control.md
R211). -/
theorem exec_startCommand (i : Instr) (s : State) : exec i s.startCommand = exec i s := by
  cases i <;> rfl

/-! ### The accumulator -/

/-- The answer with `f` done to the next state, if there is one. -/
def mapNext (f : State → State) : Answer → Answer
  | .next s => .next (f s)
  | .fault r => .fault r
  | .refused r => .refused r

@[simp] theorem mapNext_next (f : State → State) (s : State) : mapNext f (.next s) = .next (f s) := rfl

@[simp] theorem mapNext_ite (f : State → State) (p : Prop) [Decidable p] (x y : Answer) :
    mapNext f (if p then x else y) = if p then mapNext f x else mapNext f y := apply_ite _ _ _ _

theorem setAcc_ite (a : Reg) (p : Prop) [Decidable p] (s t : State) :
    (if p then s else t).setAcc a = if p then s.setAcc a else t.setAcc a := apply_ite (State.setAcc · a) _ _ _

theorem withContext_setAcc {k : TxKind} {s : State} {a : Reg} {body : Byte → List Byte → State → State}
    (hbody : ∀ n sent u, body n sent (u.setAcc a) = (body n sent u).setAcc a) :
    withContext k (s.setAcc a) body = (withContext k s body).setAcc a := by
  simp only [withContext, setAcc_ite, ← hbody]
  rfl

theorem withResponse_setAcc {e : Byte} {s : State} {a : Reg} {body : List Byte → State → State}
    (hbody : ∀ r u, body r (u.setAcc a) = (body r u).setAcc a) :
    withResponse e (s.setAcc a) body = (withResponse e s body).setAcc a := by
  simp only [withResponse, setAcc_ite, ← hbody]
  rfl

theorem readResponse_setAcc (check : Bool) (n : Byte) (r : List Byte) (s : State) (a : Reg) :
    readResponse check n r (s.setAcc a) = (readResponse check n r s).setAcc a := by
  simp only [readResponse, setAcc_ite]
  rfl

theorem writeResponse_setAcc (n : Byte) (sent r : List Byte) (s : State) (a : Reg) :
    writeResponse n sent r (s.setAcc a) = (writeResponse n sent r s).setAcc a := by
  simp only [writeResponse, setAcc_ite]
  rfl

/-- What a command outside the incremental interface does is the same for every accumulator. -/
theorem exec_setAcc {i : Instr} (hi : i.neverUsesAcc = true) (s : State) (a : Reg) :
    exec i (s.setAcc a) = mapNext (State.setAcc · a) (exec i s) := by
  cases i with
  | crcInit | crcFeed | crcFeedBuf | crcRead | clear => cases hi
  | crcBlock | tableRead | pack => rfl
  | crcVerify => simp only [exec, execCrcVerify, mapNext_ite]; rfl
  | unpack => simp only [exec, execUnpack, mapNext_ite]; rfl
  | buildRead => simp only [exec, execBuildRead, mapNext_ite]; rfl
  | buildWrite => simp only [exec, execBuildWrite, mapNext_ite]; rfl
  | parseRead =>
    exact congrArg Host.Outcome.next (withContext_setAcc (s := s.startCommand) fun n _ _ =>
      withResponse_setAcc fun r u => readResponse_setAcc _ n r u a)
  | parseWrite =>
    exact congrArg Host.Outcome.next (withContext_setAcc (s := s.startCommand) fun n sent _ =>
      withResponse_setAcc fun r u => writeResponse_setAcc n sent r u a)

end Sys2Proof.Machine

section
open Sys2Proof Sys2Proof.Machine

/-- Settles O49: the start of a command forgets what stood there. -/
theorem earlierOutputsNeverMatter : Obligations.EarlierOutputsNeverMatter := by
  intro i s ob de da or res st
  calc exec i { s with outBytes := ob, outRegs := or, diagExpected := de, diagActual := da, result := res, status := st }
    _ = exec i s.startCommand := (exec_startCommand i _).symm
    _ = exec i s := exec_startCommand i s

/-- Settles O32: the accumulator is kept, and the command commutes with setting it. -/
theorem otherCommandsNeverTouchTheAccumulator : Obligations.OtherCommandsNeverTouchTheAccumulator := by
  intro i s t a hi h
  have hnever : i.neverUsesAcc = true := by
    rcases hi with hi | ⟨n, rfl⟩ | ⟨b, c, x, p, n, rfl⟩ | ⟨b, c, x, p, rfl⟩
    · simp only [List.mem_cons, List.not_mem_nil, or_false] at hi
      rcases hi with rfl | rfl | rfl | rfl | rfl | rfl <;> rfl
    all_goals rfl
  refine ⟨(ends_of_exec h).acc_kept ?_ ?_, ?_⟩
  · rintro hmem
    simp only [List.mem_cons, List.not_mem_nil, or_false] at hmem
    rcases hmem with rfl | rfl | rfl <;> cases hnever
  · rintro n rfl
    cases hnever
  · exact (exec_setAcc hnever s a).trans (congrArg (mapNext (State.setAcc · a)) h)

/-- Settles O7: the capacity check of each host write, passed and failed. -/
theorem hostBufferWritesFitOrAreRefused : Obligations.HostBufferWritesFitOrAreRefused := by
  intro s rest
  refine ⟨fun b h => ?_, fun r h => ?_⟩ <;> rw [step_action h]
  · exact ⟨fun hfit => if_pos hfit, fun hover => if_neg (Nat.not_le_of_lt hover)⟩
  · exact ⟨fun hfit => if_pos hfit, fun hover => if_neg (Nat.not_le_of_lt hover)⟩

/-- Settles O8: a listed value is the register's `reading`. -/
theorem hostReadsReturnTheRegister : Obligations.HostReadsReturnTheRegister := by
  intro s rest x v hv h
  have hreading : v = reading x s := by
    simp only [List.mem_cons, List.not_mem_nil, or_false, Prod.mk.injEq] at hv
    rcases hv with ⟨rfl, rfl⟩ | ⟨rfl, rfl⟩ | ⟨rfl, rfl⟩ | ⟨rfl, rfl⟩ | ⟨rfl, rfl⟩ | ⟨rfl, rfl⟩ | ⟨rfl, rfl⟩ |
      ⟨rfl, rfl⟩ | ⟨rfl, rfl⟩ <;> rfl
  rw [step_action h, hreading]
  cases x <;> rfl

/-- Settles O9: the step is the `reset` action. -/
theorem hostResetRestoresResetValues : Obligations.HostResetRestoresResetValues :=
  fun _ _ h => step_action h

/-- Settles O10: the idle step. -/
theorem idleBlockKeepsItsState : Obligations.IdleBlockKeepsItsState :=
  fun _ => step_idle

/-- Settles O11: each value is read off `State.reset`. -/
theorem resetValuesAreTheListedOnes : Obligations.ResetValuesAreTheListedOnes :=
  ⟨rfl, rfl, rfl, rfl, rfl, rfl, rfl, rfl, rfl, rfl, rfl, rfl, rfl, rfl, rfl, rfl, rfl, rfl⟩

end

/-! ## The live bits of STATUS -/

namespace Sys2Proof.Machine

/-- The bit positions of a field of three bits. -/
theorem three_bit_cases {k : Nat} (h : k < 3) : k = 0 ∨ k = 1 ∨ k = 2 := by omega

theorem ctxValidBit_getLsbD (c : Ctx) : (ctxValidBit c).getLsbD 0 = c.valid := by
  cases h : c.valid <;> simp [ctxValidBit, h]

theorem ctxKindBit_getLsbD (c : Ctx) : (ctxKindBit c).getLsbD 0 = (c.valid && decide (c.kind = .write)) := by
  cases hv : c.valid <;> cases hk : c.kind <;> simp [ctxKindBit, hv, hk]

end Sys2Proof.Machine

section
open Sys2Proof Sys2Proof.Machine

/-- Settles O12: the two live bits by their own lemmas, the other five fields bit by bit. -/
theorem statusWordHasTheListedFields : Obligations.StatusWordHasTheListedFields := by
  intro s
  refine ⟨?cls, ?valid, ?kind, ?zero, ?reason, ?errCode, ?errEcho⟩
  case valid => rw [← ctxValidBit_getLsbD]; simp [statusWord]
  case kind => rw [← ctxKindBit_getLsbD]; simp [statusWord]
  case cls | zero =>
    ext k hk
    rcases three_bit_cases hk with rfl | rfl | rfl <;> simp [statusWord]
  case reason | errCode | errEcho =>
    ext k hk
    rcases byte_bit_cases hk with rfl | rfl | rfl | rfl | rfl | rfl | rfl | rfl <;> simp [statusWord]

end

/-! ## The words that decode to no command -/

namespace Sys2Proof

theorem decode_error_names_op {w : CmdWord} {e : DecodeError} (h : decode w = .error e) :
    e = .illegalOp (cmdOp w) := by
  unfold decode at h
  split at h <;> cases h
  rfl

/-- The opcode alone makes a word a command: its fields may hold anything (R81). -/
theorem exists_decode_of_cmdOp {w : CmdWord} {i : Instr} (h : cmdOp w = opcode i) : ∃ j, decode w = .ok j := by
  cases i <;> simp only [opcode] at h <;> simp [decode, h]

/-- The decoder rejects exactly the words whose `OP` is no command's opcode (R82). -/
theorem decode_eq_error_iff (w : CmdWord) :
    decode w = .error (.illegalOp (cmdOp w)) ↔ ∀ i, cmdOp w ≠ opcode i := by
  constructor
  · intro herr i hop
    obtain ⟨j, hok⟩ := exists_decode_of_cmdOp hop
    rw [herr] at hok
    cases hok
  · intro hne
    cases hd : decode w with
    | ok i => exact absurd (cmdOp_of_decode hd) (hne i)
    | error e => rw [decode_error_names_op hd]

/-- The opcodes of R80, one command of each row standing for its row. -/
theorem exists_opcode_eq_iff (op : Byte) : (∃ i, op = opcode i) ↔ op ∈ [0x01#8, 0x02#8, 0x03#8, 0x04#8, 0x05#8,
    0x06#8, 0x07#8, 0x0F#8, 0x10#8, 0x11#8, 0x20#8, 0x21#8, 0x30#8, 0x31#8] := by
  constructor
  · rintro ⟨i, rfl⟩
    cases i <;> simp [opcode]
  · intro hmem
    have hrow : op ∈ [.crcInit, .crcFeed 0, .crcFeedBuf, .crcRead, .crcBlock, .crcVerify, .tableRead 0, .clear, .pack,
      .unpack, .buildRead 0 0 0 0 0, .buildWrite 0 0 0 0, .parseRead, .parseWrite].map opcode := hmem
    obtain ⟨i, -, hi⟩ := List.mem_map.1 hrow
    exact ⟨i, hi.symm⟩

end Sys2Proof

section
open Sys2Proof Sys2Proof.Machine

/-- Settles O3: the listed ranges are the bytes that are no command's opcode. -/
theorem illegalOpcodesAreTheListedRanges : Obligations.IllegalOpcodesAreTheListedRanges := by
  intro w
  have hbyte : (w.extractLsb' 0 8).toNat < 256 := (w.extractLsb' 0 8).isLt
  refine (decode_eq_error_iff w).trans ?_
  rw [← not_exists, exists_opcode_eq_iff]
  simp only [cmdOp, List.mem_cons, List.not_mem_nil, or_false, ← BitVec.toNat_inj, BitVec.toNat_ofNat]
  omega

end

/-! ## Frames with their own CRC -/

namespace Sys2Proof.Machine

/-- Feeding its own low byte leaves the accumulator's high byte: the table is read at index 0. -/
theorem crcStep_lowByte (c : Reg) : crcStep c (lowByte c) = (highByte c).setWidth 16 := by
  have hlow : lowByte (c ^^^ (lowByte c).setWidth 16) = 0#8 := by
    ext k hk
    simp [lowByte, hk, show k < 16 by omega]
  have hhigh : (c ^^^ (lowByte c).setWidth 16) >>> 8 = (highByte c).setWidth 16 := by
    ext k hk
    have hin : c.getLsbD (8 + k) = true → 8 + k < 16 := BitVec.lt_of_getLsbD
    simpa [lowByte, highByte, show 8 + k < 16 ↔ k < 8 by omega] using hin
  rw [crcStep, hlow, hhigh, tableAt_zero, BitVec.xor_zero]

theorem crcStep_setWidth (b : Byte) : crcStep (b.setWidth 16) b = 0 := by
  simp [crcStep, lowByte]

theorem crcFold_crcBytes (c : Reg) : crcFold c (crcBytes c) = 0 := by
  rw [crcBytes, crcFold_cons, crcStep_lowByte, crcFold_cons, crcStep_setWidth, crcFold_nil]

/-- The residual of a frame is 0 (R107). -/
theorem crc16_withCrc (h : List Byte) : crc16 (withCrc h) = 0 := by
  rw [withCrc, crc16_append, crcFold_crcBytes]

theorem computedCrc_withCrc (h : List Byte) : computedCrc (withCrc h) = crc16 h :=
  computedCrc_append h _ _

theorem receivedCrc_withCrc (h : List Byte) : receivedCrc (withCrc h) = crc16 h :=
  (receivedCrc_append h _ _).trans (append_high_low _)

/-- `CRC_VERIFY` of a frame that carries its own CRC finishes (R115). -/
theorem execCrcVerify_withCrc {s : State} {h : List Byte} (hin : s.inBytes = withCrc h) :
    execCrcVerify s = .next (s.startCommand.recordCrcs s.inBytes).finish := by
  have hlen : ¬ s.inBytes.length < 2 := by
    rw [hin, length_withCrc]
    omega
  have hcrc : ¬ computedCrc s.inBytes ≠ receivedCrc s.inBytes := by
    rw [hin, computedCrc_withCrc, receivedCrc_withCrc]
    exact not_not_intro rfl
  exact (if_neg hlen).trans (if_neg hcrc)

/-! ### What a successful build emits -/

theorem Reason.cls_code_ne_zero (r : Reason) : r.cls.code ≠ 0 := by
  cases r <;> decide

theorem Ends.completes_of_ok {i : Instr} {s t : State} (h : Ends s i t) (hok : t.status.cls = 0) :
    ∃ u, Completes s i u ∧ t = u.finish := by
  cases h with
  | finish hu => exact ⟨_, hu, rfl⟩
  | raise hr => exact absurd hok (Reason.cls_code_ne_zero _)

/-- A build emits a header with its CRC (R161, R162), the header as long as its layout says (R71, R73). -/
theorem Completes.built {i : Instr} {s u : State} (h : Completes s i u) (hi : i.isBuilder = true) :
    ∃ header, u.outBytes = withCrc header ∧ (u.ctx.kind = .read → header.length = 6) ∧
      (u.ctx.kind = .write → header.length = 6 + 2 * s.inRegs.length) := by
  cases h with
  | buildRead => exact ⟨_, rfl, fun _ => rfl, nofun⟩
  | buildWrite => exact ⟨_, rfl, nofun, fun _ => length_writeHeader ..⟩
  | _ => cases hi

end Sys2Proof.Machine

section
open Sys2Proof Sys2Proof.Machine

/-- Settles O37: the frame is a header with its CRC, so its residual is 0 and `CRC_VERIFY` of it finishes. -/
theorem builtFramesPassTheCrcCheck : Obligations.BuiltFramesPassTheCrcCheck := by
  intro i s t u hi hbuild hok hverify
  have hbuilder : i.isBuilder = true := by
    rcases hi with ⟨_, _, _, _, _, rfl⟩ | ⟨_, _, _, _, rfl⟩ <;> rfl
  obtain ⟨v, hv, rfl⟩ := (ends_of_exec hbuild).completes_of_ok hok
  obtain ⟨header, hout, hread, hwrite⟩ := hv.built hbuilder
  refine ⟨?_, ?_, fun hkind => ?_, fun hkind => ?_⟩
  · have hfinish := execCrcVerify_withCrc (s := { v.finish with inBytes := v.finish.outBytes }) hout
    cases hverify.symm.trans hfinish
    rfl
  · rw [State.finish_outBytes, hout, crc16_withCrc]
  · rw [State.finish_outBytes, hout, length_withCrc, hread hkind]
  · rw [State.finish_outBytes, hout, length_withCrc, hwrite hkind]
    omega

end

/-! ## The CRC as a linear map

One bit step is linear and injective. By linearity eight of them are the shift and the table entry of 40_crc.md R102,
and by injectivity the bytes that follow never bring two different accumulators together. -/

namespace Sys2Proof.Reference
open Sys2Proof.Machine

@[simp] theorem bitSteps_succ (n : Nat) (c : Reg) : bitSteps (n + 1) c = bitSteps n (bitStep c) := rfl

theorem bitStep_of_even {c : Reg} (h : c.getLsbD 0 = false) : bitStep c = c >>> 1 := by
  rw [bitStep, h]
  rfl

theorem bitStep_of_odd {c : Reg} (h : c.getLsbD 0 = true) : bitStep c = c >>> 1 ^^^ 0xA001#16 := by
  rw [bitStep, h]
  rfl

/-! ### Linearity -/

theorem bitStep_xor (c d : Reg) : bitStep (c ^^^ d) = bitStep c ^^^ bitStep d := by
  have hshift : (c ^^^ d) >>> 1 = c >>> 1 ^^^ d >>> 1 := BitVec.ushiftRight_xor_distrib c d 1
  unfold bitStep
  rw [BitVec.getLsbD_xor, hshift]
  cases c.getLsbD 0 <;> cases d.getLsbD 0
  case false.false => rfl
  case false.true => exact BitVec.xor_assoc _ _ _
  case true.false =>
    change c >>> 1 ^^^ d >>> 1 ^^^ 0xA001#16 = c >>> 1 ^^^ 0xA001#16 ^^^ d >>> 1
    ac_rfl
  case true.true =>
    change c >>> 1 ^^^ d >>> 1 = c >>> 1 ^^^ 0xA001#16 ^^^ (d >>> 1 ^^^ 0xA001#16)
    calc c >>> 1 ^^^ d >>> 1
      _ = c >>> 1 ^^^ d >>> 1 ^^^ (0xA001#16 ^^^ 0xA001#16) := by rw [BitVec.xor_self, BitVec.xor_zero]
      _ = c >>> 1 ^^^ 0xA001#16 ^^^ (d >>> 1 ^^^ 0xA001#16) := by ac_rfl

theorem bitSteps_xor (n : Nat) (c d : Reg) : bitSteps n (c ^^^ d) = bitSteps n c ^^^ bitSteps n d := by
  induction n generalizing c d with
  | zero => rfl
  | succ n ih => rw [bitSteps_succ, bitStep_xor, ih, bitSteps_succ, bitSteps_succ]

/-- Where the next `n` bits are 0 the constant is never XORed in. -/
theorem bitSteps_eq_shift (n : Nat) (c : Reg) (hzero : ∀ k < n, c.getLsbD k = false) : bitSteps n c = c >>> n := by
  induction n generalizing c with
  | zero => exact (BitVec.ushiftRight_zero c).symm
  | succ n ih =>
    have hrest : ∀ k < n, (c >>> 1).getLsbD k = false := fun k hk => by
      rw [BitVec.getLsbD_ushiftRight]
      exact hzero (1 + k) (by omega)
    rw [bitSteps_succ, bitStep_of_even (hzero 0 (by omega)), ih _ hrest, ← BitVec.shiftRight_add, Nat.add_comm]

/-! ### The table form (R101, R104) -/

/-- The 256 listed entries, each compared with the procedure. -/
theorem tableAt_eq_tableEntry : ∀ i : Byte, tableAt i = tableEntry i := by
  decide

/-- Eight bit steps: the high byte only shifts, and the low byte's part is the entry of the table. -/
theorem bitSteps_eight (c : Reg) : bitSteps 8 c = c >>> 8 ^^^ tableAt (lowByte c) := by
  have hsplit : c = c >>> 8 <<< 8 ^^^ (lowByte c).setWidth 16 := by
    apply BitVec.eq_of_getLsbD_eq
    intro k hk
    by_cases h : k < 8
    · simp [lowByte, h, hk]
    · simp [lowByte, h, hk, show 8 + (k - 8) = k by omega]
  have hhigh : bitSteps 8 (c >>> 8 <<< 8) = c >>> 8 := by
    rw [bitSteps_eq_shift 8 _ (fun k hk => by simp [hk])]
    apply BitVec.eq_of_getLsbD_eq
    intro k hk
    simpa using BitVec.lt_of_getLsbD (x := c) (i := 8 + k)
  calc bitSteps 8 c
    _ = bitSteps 8 (c >>> 8 <<< 8 ^^^ (lowByte c).setWidth 16) := congrArg _ hsplit
    _ = c >>> 8 ^^^ tableEntry (lowByte c) := by rw [bitSteps_xor, hhigh, tableEntry]
    _ = c >>> 8 ^^^ tableAt (lowByte c) := by rw [tableAt_eq_tableEntry]

theorem crcStep_eq_serialStep (acc : Reg) (b : Byte) : crcStep acc b = serialStep acc b :=
  (bitSteps_eight _).symm

/-! ### Injectivity -/

/-- Bit 15 of the constant is 1, so the bit shifted out at the right comes back at the left. -/
theorem bitStep_getLsbD_last (c : Reg) : (bitStep c).getLsbD 15 = c.getLsbD 0 := by
  cases h : c.getLsbD 0
  case false => simp [bitStep_of_even h]
  case true => simp [bitStep_of_odd h]

theorem bitStep_inj {c d : Reg} (h : bitStep c = bitStep d) : c = d := by
  have hbit : c.getLsbD 0 = d.getLsbD 0 := by rw [← bitStep_getLsbD_last, h, bitStep_getLsbD_last]
  have hshift : c >>> 1 = d >>> 1 := by
    unfold bitStep at h
    rw [hbit] at h
    split at h
    · exact (BitVec.xor_left_inj _).1 h
    · exact h
  apply BitVec.eq_of_getLsbD_eq
  intro k hk
  cases k with
  | zero => exact hbit
  | succ k =>
    have hk : (c >>> 1).getLsbD k = (d >>> 1).getLsbD k := congrArg (BitVec.getLsbD · k) hshift
    rwa [BitVec.getLsbD_ushiftRight, BitVec.getLsbD_ushiftRight, Nat.add_comm] at hk

theorem bitSteps_inj {n : Nat} {c d : Reg} (h : bitSteps n c = bitSteps n d) : c = d := by
  induction n generalizing c d with
  | zero => exact h
  | succ n ih => exact bitStep_inj (ih h)

end Sys2Proof.Reference

namespace Sys2Proof.Machine
open Sys2Proof.Reference

/-- A step forgets nothing of the accumulator with the byte in it. -/
theorem crcStep_inj {acc acc' : Reg} {b b' : Byte} (h : crcStep acc b = crcStep acc' b') :
    acc ^^^ b.setWidth 16 = acc' ^^^ b'.setWidth 16 := by
  rw [crcStep_eq_serialStep, crcStep_eq_serialStep] at h
  exact bitSteps_inj h

theorem crcStep_acc_inj {acc acc' : Reg} {b : Byte} (h : crcStep acc b = crcStep acc' b) : acc = acc' :=
  (BitVec.xor_left_inj _).1 (crcStep_inj h)

theorem crcStep_byte_inj {acc : Reg} {b b' : Byte} (h : crcStep acc b = crcStep acc b') : b = b' := by
  have hext : b.setWidth 16 = b'.setWidth 16 := (BitVec.xor_right_inj _).1 (crcStep_inj h)
  simpa using congrArg (BitVec.setWidth 8) hext

theorem crcFold_inj {s : List Byte} {acc acc' : Reg} (h : crcFold acc s = crcFold acc' s) : acc = acc' := by
  induction s generalizing acc acc' with
  | nil => exact h
  | cons b s ih => exact crcStep_acc_inj (ih h)

/-- Two trailing bytes take the accumulator to 0 only where they are its own bytes, low byte first (R107). -/
theorem crcFold_trailing_eq_zero_iff (c : Reg) (lo hi : Byte) : crcFold c [lo, hi] = 0 ↔ c = hi ++ lo := by
  have hself : crcFold (hi ++ lo) [lo, hi] = 0 := by rw [← crcBytes_append, crcFold_crcBytes]
  exact ⟨fun h => crcFold_inj (h.trans hself.symm), fun h => h ▸ hself⟩

end Sys2Proof.Machine

section
open Sys2Proof Sys2Proof.Machine Sys2Proof.Reference

/-- Settles O13: the listed entries, one by one. -/
theorem tableEntriesAreEightBitSteps : Obligations.TableEntriesAreEightBitSteps :=
  tableAt_eq_tableEntry

/-- Settles O16: the step by linearity (`bitSteps_eight`), the sequences by folding the same step. -/
theorem tableCrcEqualsBitSerialCrc : Obligations.TableCrcEqualsBitSerialCrc := by
  have hstep : crcStep = serialStep := funext fun acc => funext fun b => crcStep_eq_serialStep acc b
  refine ⟨crcStep_eq_serialStep, fun s => ?_⟩
  rw [crc16, crcFold, hstep]
  rfl

/-- Settles O18: a frame of two bytes or more is a message and two trailing bytes, which `crc_ok` compares. -/
theorem crcCheckComparesTheTrailingBytes : Obligations.CrcCheckComparesTheTrailingBytes := by
  intro f hlen
  constructor
  · intro hok
    obtain ⟨m, lo, hi, rfl⟩ := exists_trailing_bytes f hlen
    have hcrc : crc16 m = hi ++ lo := by simpa using hok
    refine ⟨m, ?_⟩
    change m ++ [lo, hi] = m ++ crcBytes (crc16 m)
    rw [hcrc, crcBytes_append]
  · rintro ⟨m, rfl⟩
    rw [crcOk_append]
    exact decide_eq_true (append_high_low (crc16 m)).symm

/-- Settles O19: the residual of a frame is 0, and of no other two trailing bytes. -/
theorem zeroResidualIsTheCrcCheck : Obligations.ZeroResidualIsTheCrcCheck := by
  refine ⟨crc16_withCrc, fun f hlen => ?_⟩
  obtain ⟨m, lo, hi, rfl⟩ := exists_trailing_bytes f hlen
  rw [crcOk_append, decide_eq_true_iff, crc16_append, crcFold_trailing_eq_zero_iff]

/-- Settles O20: the fold over the bytes after the changed one is injective, and so is the step in its byte. -/
theorem oneChangedByteChangesTheCrc : Obligations.OneChangedByteChangesTheCrc := by
  intro u v x y h
  rw [crc16_append, crc16_append, crcFold_cons, crcFold_cons] at h
  exact crcStep_byte_inj (crcFold_inj h)

/-- Settles O14: the first part is the definition; a byte has no bit above the low 8. -/
theorem crcStepIsShiftAndTable : Obligations.CrcStepIsShiftAndTable := by
  intro acc b
  refine ⟨rfl, ?_⟩
  ext k hk
  simp

/-- Settles O15: the fold over `s ++ [b]`. -/
theorem crcStartsFromSeedAndTakesBytesInOrder : Obligations.CrcStartsFromSeedAndTakesBytesInOrder :=
  ⟨rfl, fun s b => crc16_append s [b]⟩

/-- Settles O17: the bytes of a register, joined in the other order. -/
theorem crcBytesGoLowByteFirst : Obligations.CrcBytesGoLowByteFirst :=
  ⟨fun _ => rfl, fun _ _ => BitVec.or_comm _ _, joinBytes_high_low⟩

end

/-! ## The CRC commands (40_crc.md section 2) -/

namespace Sys2Proof

/-- A command whose row names `OP` alone is selected by it. -/
theorem decode_of_op {w : CmdWord} {i : Instr} (hmask : readMask i = 0x0000000000FF)
    (hencode : encode i = cmdWord (opcode i) 0 0 0 0 0) (hop : cmdOp w = opcode i) : decode w = .ok i := by
  rw [decode_eq_ok_iff, hmask, and_mask_op, hop, hencode]

/-- A command whose row names `OP` and `N` is selected by `OP` and takes `N`. -/
theorem decode_of_op_n {w : CmdWord} {i : Instr} (hmask : readMask i = 0xFF00000000FF)
    (hencode : encode i = cmdWord (opcode i) 0 0 0 0 (cmdN w)) (hop : cmdOp w = opcode i) : decode w = .ok i := by
  rw [decode_eq_ok_iff, hmask, and_mask_op_n, hop, hencode]

end Sys2Proof

namespace Sys2Proof.Machine

/-- A command that writes `RESULT_LO` alone and finishes. -/
theorem finish_startCommand_setResultLo (s : State) (v : Reg) : (s.startCommand.setResultLo v).finish = { s with
    outBytes := [], outRegs := [], diagExpected := [], diagActual := [], status := ⟨0, 0, 0, 0⟩,
    result := 0#16 ++ v } := by
  rw [startCommand_setResultLo]
  rfl

/-- A command that leaves a value in `ACC` and `RESULT_LO` and finishes (R110 to R112). -/
theorem finish_startCommand_setAcc (s : State) (v : Reg) :
    ((s.startCommand.setAcc v).setResultLo v).finish = { s with
      outBytes := [], outRegs := [], diagExpected := [], diagActual := [], status := ⟨0, 0, 0, 0⟩,
      result := 0#16 ++ v, acc := v } :=
  finish_startCommand_setResultLo (s.setAcc v) v

/-- A command that answers a CRC in `RESULT_LO` and, low byte first, in `OUT_BYTES`, and finishes (R113, R114). -/
theorem finish_startCommand_crcBytes (s : State) (c : Reg) :
    ((s.startCommand.setResultLo c).setOutBytes (crcBytes c)).finish = { s with
      outRegs := [], diagExpected := [], diagActual := [], status := ⟨0, 0, 0, 0⟩,
      result := 0#16 ++ c, outBytes := [c.extractLsb' 0 8, c.extractLsb' 8 8] } :=
  congrArg (State.setOutBytes · (crcBytes c)) (finish_startCommand_setResultLo s c)

theorem exec_crcFeedBuf (s : State) : exec .crcFeedBuf s = .next { s with
    outBytes := [], outRegs := [], diagExpected := [], diagActual := [], status := ⟨0, 0, 0, 0⟩,
    result := 0#16 ++ crcFold s.acc s.inBytes, acc := crcFold s.acc s.inBytes } :=
  congrArg Host.Outcome.next (finish_startCommand_setAcc s _)

/-- `CRC_VERIFY` of a message and two trailing bytes (R115). -/
theorem exec_crcVerify_append {s : State} {m : List Byte} {lo hi : Byte} (hin : s.inBytes = m ++ [lo, hi]) :
    exec .crcVerify s =
      if crc16 m ≠ hi ++ lo then
        .next (State.raise { s.startCommand with result := (hi ++ lo : Reg) ++ crc16 m } .crcMismatch)
      else .next (State.finish { s.startCommand with result := (hi ++ lo : Reg) ++ crc16 m }) := by
  have hlen : ¬ (m ++ [lo, hi]).length < 2 := by simp
  rw [exec, execCrcVerify, hin, if_neg hlen, computedCrc_append, receivedCrc_append, recordCrcs_append]

end Sys2Proof.Machine

section
open Sys2Proof Sys2Proof.Machine

/-- Settles O24: the seed in `ACC` and `RESULT_LO`. -/
theorem crcInitSeedsTheAccumulator : Obligations.CrcInitSeedsTheAccumulator :=
  ⟨fun _ hop => decode_of_op rfl rfl hop, fun s =>
    congrArg Host.Outcome.next (finish_startCommand_setAcc s crcSeed)⟩

/-- Settles O25: the step of the byte `N` in `ACC` and `RESULT_LO`. -/
theorem crcFeedAddsOneByte : Obligations.CrcFeedAddsOneByte :=
  ⟨fun _ hop => decode_of_op_n rfl rfl hop, fun s n =>
    congrArg Host.Outcome.next (finish_startCommand_setAcc s (crcStep s.acc n))⟩

/-- Settles O26: the fold over `IN_BYTES`, and a fold over an append. -/
theorem crcFeedBufAddsEveryByte : Obligations.CrcFeedBufAddsEveryByte :=
  ⟨fun _ hop => decode_of_op rfl rfl hop, crcFold_append, exec_crcFeedBuf⟩

/-- Settles O27: the three next states written out, the two folds are the fold over the append. -/
theorem feedingInPiecesIsFeedingTheWhole : Obligations.FeedingInPiecesIsFeedingTheWhole := by
  intro s t t' t'' u v hu hv huv
  rw [exec_crcFeedBuf] at hu hv huv
  cases hu
  cases hv
  cases huv
  have happend : crcFold (crcFold s.acc u) v = crcFold s.acc (u ++ v) := (crcFold_append s.acc u v).symm
  refine ⟨?_, fun hseed => ?_⟩
  · simp only [happend]
  · exact happend.trans (congrArg (crcFold · (u ++ v)) hseed)

/-- Settles O28: `ACC` in `RESULT_LO` and `OUT_BYTES`. -/
theorem crcReadReturnsTheAccumulator : Obligations.CrcReadReturnsTheAccumulator :=
  ⟨fun _ hop => decode_of_op rfl rfl hop, fun s =>
    congrArg Host.Outcome.next (finish_startCommand_crcBytes s s.acc)⟩

/-- Settles O29: the CRC of `IN_BYTES` in `RESULT_LO` and `OUT_BYTES`. -/
theorem crcBlockReturnsTheCrcOfInBytes : Obligations.CrcBlockReturnsTheCrcOfInBytes :=
  ⟨fun _ hop => decode_of_op rfl rfl hop, fun s =>
    congrArg Host.Outcome.next (finish_startCommand_crcBytes s (crc16 s.inBytes))⟩

/-- Settles O30: the length check, then the comparison of `exec_crcVerify_append` both ways. -/
theorem crcVerifyComparesTheTrailingCrc : Obligations.CrcVerifyComparesTheTrailingCrc := by
  refine ⟨fun _ hop => decode_of_op rfl rfl hop, fun s hshort => if_pos hshort, fun s m lo hi hin => ?_⟩
  rw [exec_crcVerify_append hin]
  exact ⟨fun heq => if_neg (not_not_intro heq), fun hne => if_pos hne⟩

/-- Settles O31: the entry in `RESULT_LO`; the three named entries are looked up. -/
theorem tableReadReturnsTheEntry : Obligations.TableReadReturnsTheEntry :=
  ⟨fun _ hop => decode_of_op_n rfl rfl hop, fun s n =>
    congrArg Host.Outcome.next (finish_startCommand_setResultLo s (tableAt n)), rfl, rfl, rfl⟩

end

/-! ## The register codec (41_register_codec.md) -/

namespace Sys2Proof.Machine

/-! ### The codec functions (R140, R141, R145) -/

theorem getElem?_pack {rs : List Reg} {k : Nat} {r : Reg} (hr : rs[k]? = some r) :
    (pack rs)[2 * k]? = some (highByte r) ∧ (pack rs)[2 * k + 1]? = some (lowByte r) := by
  induction rs generalizing k with
  | nil => simp at hr
  | cons q rs ih =>
    cases k with
    | zero =>
      obtain rfl : q = r := by simpa using hr
      exact ⟨rfl, rfl⟩
    | succ k => exact ih hr

theorem getElem?_unpack {s : List Byte} {k : Nat} {hi lo : Byte} (hhi : s[2 * k]? = some hi)
    (hlo : s[2 * k + 1]? = some lo) : (unpack s)[k]? = some (joinBytes hi lo) := by
  induction s using two_bytes_induction generalizing k with
  | hnil => simp at hhi
  | hone b => simp at hlo
  | htwo b0 b1 s ih =>
    cases k with
    | zero =>
      obtain rfl : b0 = hi := by simpa using hhi
      obtain rfl : b1 = lo := by simpa using hlo
      rfl
    | succ k => exact ih hhi hlo

@[simp] theorem unpack_pack (rs : List Reg) : unpack (pack rs) = rs := by
  induction rs with
  | nil => rfl
  | cons r rs ih => rw [pack_cons, unpack_cons, joinBytes_high_low, ih]

theorem pack_unpack {s : List Byte} (heven : s.length % 2 = 0) : pack (unpack s) = s := by
  induction s using two_bytes_induction with
  | hnil => rfl
  | hone b => cases heven
  | htwo hi lo s ih =>
    have hrest : s.length % 2 = 0 := (Nat.add_mod_right s.length 2).symm.trans heven
    rw [unpack_cons, pack_cons, joinBytes_eq_append, highByte_append, lowByte_append, ih hrest]

/-! ### The codec commands (R143, R144) -/

/-- A command that writes a length into `RESULT_LO` alone and finishes: the length fits the half. -/
theorem finish_startCommand_setResultLo_len16 (s : State) {n : Nat} (hn : n < 65536) :
    (s.startCommand.setResultLo (len16 n)).finish = { s with
      outBytes := [], outRegs := [], diagExpected := [], diagActual := [], status := ⟨0, 0, 0, 0⟩,
      result := BitVec.ofNat 32 n } := by
  rw [finish_startCommand_setResultLo, len16, zero_append_ofNat n hn]

theorem exec_pack {s : State} (hlen : 2 * s.inRegs.length < 65536) : exec .pack s = .next { s with
    outRegs := [], diagExpected := [], diagActual := [], status := ⟨0, 0, 0, 0⟩,
    outBytes := pack s.inRegs, result := BitVec.ofNat 32 (2 * s.inRegs.length) } := by
  have hfinish := finish_startCommand_setResultLo_len16 s hlen
  rw [← length_pack] at hfinish ⊢
  exact congrArg (fun t : State => Host.Outcome.next (t.setOutBytes (pack s.inRegs))) hfinish

theorem exec_unpack_even {s : State} (hlen : s.inBytes.length / 2 < 65536) (heven : s.inBytes.length % 2 = 0) :
    exec .unpack s = .next { s with
      outBytes := [], diagExpected := [], diagActual := [], status := ⟨0, 0, 0, 0⟩,
      outRegs := unpack s.inBytes, result := BitVec.ofNat 32 (s.inBytes.length / 2) } := by
  have hfinish := finish_startCommand_setResultLo_len16 s hlen
  rw [← length_unpack] at hfinish ⊢
  rw [exec, execUnpack, if_neg (by omega)]
  exact congrArg (fun t : State => Host.Outcome.next (t.setOutRegs (unpack s.inBytes))) hfinish

end Sys2Proof.Machine

section
open Sys2Proof Sys2Proof.Machine

/-- Settles O21: the bytes of register `k`, by induction on the registers (`getElem?_pack`). -/
theorem packPutsHighByteThenLowByte : Obligations.PackPutsHighByteThenLowByte :=
  ⟨pack_nil, fun rs => ⟨length_pack rs, fun _ _ => getElem?_pack⟩⟩

/-- Settles O22: register `k` of its two bytes, by induction two bytes at a time (`getElem?_unpack`). -/
theorem unpackJoinsBytePairs : Obligations.UnpackJoinsBytePairs :=
  ⟨unpack_nil, fun s _ => ⟨length_unpack s, fun _ _ _ => getElem?_unpack⟩⟩

/-- Settles O23: joining the bytes of a register gives it back, and so does splitting a joined pair. -/
theorem packAndUnpackAreInverse : Obligations.PackAndUnpackAreInverse :=
  ⟨unpack_pack, fun _ => pack_unpack⟩

/-- Settles O33: the registers fit their buffer, so the bytes fit theirs and their number fits `RESULT_LO`. -/
theorem packCommandPacksInRegs : Obligations.PackCommandPacksInRegs := by
  refine ⟨fun _ hop => decode_of_op rfl rfl hop, fun s hfit => ?_⟩
  have hcap : Config.regBufCap ≤ 32767 := Config.regBufCap_allowed.2
  have hbytes : Config.byteBufCap = 2 * Config.regBufCap := Config.byteBufCap_eq
  exact ⟨exec_pack (by omega), by omega⟩

/-- Settles O34: an even length finishes, with a number of registers that fits `RESULT_LO`; an odd one raises. -/
theorem unpackCommandUnpacksInBytes : Obligations.UnpackCommandUnpacksInBytes := by
  refine ⟨fun _ hop => decode_of_op rfl rfl hop, fun s hfit heven => ?_, fun s hodd => if_pos hodd⟩
  have hcap : Config.regBufCap ≤ 32767 := Config.regBufCap_allowed.2
  have hbytes : Config.byteBufCap = 2 * Config.regBufCap := Config.byteBufCap_eq
  exact exec_unpack_even (by omega) heven

end

/-! ## The request builders (42_frame_codec.md R163 to R168) -/

namespace Sys2Proof

/-- A command whose row names every field is selected by `OP` and takes the others. -/
theorem decode_of_op_all {w : CmdWord} {i : Instr} (hmask : readMask i = 0xFFFFFFFFFFFF)
    (hencode : encode i = cmdWord (opcode i) (cmdA w) (cmdC w) (cmdI w) (cmdP w) (cmdN w))
    (hop : cmdOp w = opcode i) : decode w = .ok i := by
  rw [decode_eq_ok_iff, hmask, and_mask_all, hop, hencode]

/-- A command whose row names every field but `N` is selected by `OP` and takes the others. -/
theorem decode_of_op_no_n {w : CmdWord} {i : Instr} (hmask : readMask i = 0x00FFFFFFFFFF)
    (hencode : encode i = cmdWord (opcode i) (cmdA w) (cmdC w) (cmdI w) (cmdP w) 0)
    (hop : cmdOp w = opcode i) : decode w = .ok i := by
  rw [decode_eq_ok_iff, hmask, and_mask_no_n, hop, hencode]

theorem Instr.isParser_of_isBuilder {i : Instr} (hi : i.isBuilder = true) : i.isParser = false := by
  cases i with
  | parseRead | parseWrite => cases hi
  | _ => rfl

end Sys2Proof

namespace Sys2Proof.Machine

theorem categoryLegal_ne_false {c : Byte} (hcat : c.toNat ≤ 7) : ¬ categoryLegal c = false := by
  rw [categoryLegal_eq_false]
  exact Nat.not_lt_of_le hcat

/-- `BUILD_READ` past its checks (R161, R165). -/
theorem exec_buildRead {c n : Byte} (hcat : c.toNat ≤ 7) (hcount : 1 ≤ n.toNat) (a i p : Byte) (s : State) :
    exec (.buildRead a c i p n) s = .next { s with
      outRegs := [], diagExpected := [], diagActual := [], status := ⟨0, 0, 0, 0⟩,
      outBytes := withCrc (readHeader a c i p n),
      result := crc16 (readHeader a c i p n) ++ len16 (responseLength n.toNat), ctx := ⟨true, .read, n, []⟩ } :=
  ((if_neg (categoryLegal_ne_false hcat)).trans (if_neg (Nat.not_lt_of_le hcount))).trans
    (congrArg Host.Outcome.next (buildOutputs_eq _ _ _ _))

/-- `BUILD_WRITE` past its checks (R162, R168). -/
theorem exec_buildWrite {c : Byte} {s : State} (hcat : c.toNat ≤ 7) (hpos : 1 ≤ s.inRegs.length)
    (hmax : s.inRegs.length ≤ Config.maxWriteCount) (a i p : Byte) :
    exec (.buildWrite a c i p) s = .next { s with
      outRegs := [], diagExpected := [], diagActual := [], status := ⟨0, 0, 0, 0⟩,
      outBytes := withCrc (writeHeader a c i p s.inRegs),
      result := crc16 (writeHeader a c i p s.inRegs) ++ len16 (responseLength s.inRegs.length),
      ctx := ⟨true, .write, BitVec.ofNat 8 s.inRegs.length, pack s.inRegs⟩ } :=
  ((if_neg (categoryLegal_ne_false hcat)).trans
    ((if_neg (Nat.ne_of_gt hpos)).trans (if_neg (Nat.not_lt_of_le hmax)))).trans
    (congrArg Host.Outcome.next (buildOutputs_eq _ _ _ _))

/-- A build that raises has closed the open transaction (R165, R168). -/
theorem Raises.closed_by_builder {i : Instr} {r : Reason} {s u : State} (h : Raises s i r u)
    (hi : i.isBuilder = true) : u.ctx.valid = false := by
  cases h with
  | build | response | echoMismatch => rfl
  | shortInput | verifyMismatch | oddLength | payloadMismatch => cases hi
  | noContext hparser =>
    rw [Instr.isParser_of_isBuilder hi] at hparser
    cases hparser

theorem Ends.closed_by_failed_build {i : Instr} {s t : State} (h : Ends s i t) (hi : i.isBuilder = true)
    (hfail : t.status.cls ≠ 0) : t.ctx.valid = false := by
  cases h with
  | finish => exact absurd rfl hfail
  | raise h => exact h.closed_by_builder hi

end Sys2Proof.Machine

section
open Sys2Proof Sys2Proof.Machine

/-- Settles O35: the two checks of R163 in their order, and the outputs past both. -/
theorem buildReadBuildsTheRequest : Obligations.BuildReadBuildsTheRequest := by
  refine ⟨fun _ hop => decode_of_op_all rfl rfl hop, fun s a c i p n => ⟨?_, ?_, ?_⟩⟩
  · exact fun hcat hcount => exec_buildRead hcat hcount a i p s
  · exact fun hcat => if_pos ((categoryLegal_eq_false c).2 hcat)
  · rintro hcat rfl
    exact (if_neg (categoryLegal_ne_false hcat)).trans (if_pos Nat.zero_lt_one)

/-- Settles O36: the three checks of R166 and R167 in their order, and the outputs past all of them. -/
theorem buildWriteBuildsTheRequest : Obligations.BuildWriteBuildsTheRequest := by
  refine ⟨fun _ hop => decode_of_op_no_n rfl rfl hop, ?_⟩
  rintro s a c i p _ rfl
  refine ⟨?_, ?_, ?_, ?_⟩
  · exact fun hcat hpos hmax => exec_buildWrite hcat hpos hmax a i p
  · exact fun hcat => if_pos ((categoryLegal_eq_false c).2 hcat)
  · exact fun hcat hnil => (if_neg (categoryLegal_ne_false hcat)).trans (if_pos (congrArg List.length hnil))
  · exact fun hcat hmany => (if_neg (categoryLegal_ne_false hcat)).trans
      ((if_neg (Nat.ne_of_gt (Nat.zero_lt_of_lt hmany))).trans (if_pos hmany))

end

/-! ## The response parsers (42_frame_codec.md R169 to R183)

Both parsers run the same two checks, of the context and of the response's header, and then their own last steps. -/

namespace Sys2Proof.Machine

/-- A parser of the kind `k`, whose wire command is `e`: the checks both parsers start with, then its own last steps. -/
def parser (k : TxKind) (e : Byte) (body : Byte → List Byte → List Byte → State → State) (s : State) : State :=
  withContext k s.startCommand fun n sent u => withResponse e u fun r u => body n sent r u

/-- The last steps of `PARSE_READ` (R172 to R174), which need no payload. -/
def readBody (n : Byte) (_sent : List Byte) : List Byte → State → State := readResponse Config.readCrcCheck n

theorem exec_parseRead (s : State) : exec .parseRead s = .next (parser .read wireRead readBody s) := rfl

theorem exec_parseWrite (s : State) : exec .parseWrite s = .next (parser .write wireWrite writeResponse s) := rfl

/-! ### RESULT after a parser has closed the transaction -/

/-- A length in `RESULT_LO` alone, after the start of a command. -/
theorem startCommand_setResultLo_len16 (s : State) {n : Nat} (hn : n < 65536) :
    s.startCommand.setResultLo (len16 n) = { s.startCommand with result := BitVec.ofNat 32 n } := by
  rw [startCommand_setResultLo, len16, zero_append_ofNat n hn]

/-- The context's count in `RESULT_LO` alone (R175, R182). -/
theorem startCommand_setResultLo_count (s : State) (n : Byte) :
    s.startCommand.setResultLo (n.setWidth 16) = { s.startCommand with result := BitVec.ofNat 32 n.toNat } := by
  rw [← startCommand_setResultLo_len16 s (Nat.lt_trans n.isLt (by decide)), len16, BitVec.ofNat_toNat]

/-! ### The checks both parsers start with -/

section Parser

variable {k : TxKind} {e : Byte} {body : Byte → List Byte → List Byte → State → State} {s : State}

theorem parser_noContext (h : ¬(s.ctx.valid = true ∧ s.ctx.kind = k)) :
    parser k e body s = s.startCommand.raise .noContext :=
  withContext_closed (s := s.startCommand) h _

theorem parser_open (hopen : s.ctx.valid = true) (hkind : s.ctx.kind = k) :
    parser k e body s = withResponse e s.startCommand.closeCtx (body s.ctx.count s.ctx.payload) :=
  withContext_open (s := s.startCommand) hopen hkind _

theorem parser_short (hopen : s.ctx.valid = true) (hkind : s.ctx.kind = k) (hlen : s.inBytes.length < 3) :
    parser k e body s = { s with
      outBytes := [], outRegs := [], diagExpected := [], diagActual := [], status := ⟨2, 1, 0, 0⟩,
      result := BitVec.ofNat 32 s.inBytes.length, ctx := { s.ctx with valid := false } } :=
  (parser_open hopen hkind).trans <| (withResponse_short (s := s.startCommand.closeCtx) hlen _).trans <|
    congrArg (State.raise · .shortResponse) (startCommand_setResultLo_len16 s.closeCtx (Nat.lt_trans hlen (by decide)))

theorem parser_echo (hopen : s.ctx.valid = true) (hkind : s.ctx.kind = k) {b0 b1 b2 : Byte} {rest : List Byte}
    (hin : s.inBytes = b0 :: b1 :: b2 :: rest) (hecho : b1 ≠ e) : parser k e body s = { s with
      outBytes := [], outRegs := [], diagExpected := [], diagActual := [], result := 0, status := ⟨3, 1, b2, b1⟩,
      ctx := { s.ctx with valid := false } } :=
  (parser_open hopen hkind).trans (withResponse_echo (s := s.startCommand.closeCtx) hin hecho _)

theorem parser_pass (hopen : s.ctx.valid = true) (hkind : s.ctx.kind = k) {b0 b2 : Byte} {rest : List Byte}
    (hin : s.inBytes = b0 :: e :: b2 :: rest) :
    parser k e body s = body s.ctx.count s.ctx.payload (b0 :: e :: b2 :: rest) s.startCommand.closeCtx :=
  (parser_open hopen hkind).trans (withResponse_pass (s := s.startCommand.closeCtx) hin _)

/-- With an open transaction a parser accepts exactly the responses that echo the wire command and that its last steps
accept. -/
theorem parser_ok_iff (hopen : s.ctx.valid = true) (hkind : s.ctx.kind = k) :
    (parser k e body s).status.cls = 0 ↔ ∃ b0 b2 rest, s.inBytes = b0 :: e :: b2 :: rest ∧
      (body s.ctx.count s.ctx.payload (b0 :: e :: b2 :: rest) s.startCommand.closeCtx).status.cls = 0 := by
  constructor
  · intro hok
    rw [parser_open hopen hkind] at hok
    rcases withResponse_cases e s.startCommand.closeCtx (body s.ctx.count s.ctx.payload) with
      ⟨-, hresp⟩ | ⟨b0, b1, b2, rest, hin, ⟨-, hresp⟩ | ⟨rfl, hresp⟩⟩ <;> rw [hresp] at hok
    · exact absurd hok (Reason.cls_code_ne_zero .shortResponse)
    · exact absurd hok (Reason.cls_code_ne_zero .echoMismatch)
    · exact ⟨b0, b2, rest, hin, hok⟩
  · rintro ⟨b0, b2, rest, hin, hok⟩
    rw [parser_pass hopen hkind hin]
    exact hok

/-! ### A parser consumes the transaction (R183) -/

theorem withResponse_ctx {f : List Byte → State → State} (hf : ∀ r u, (f r u).ctx = u.ctx) :
    (withResponse e s f).ctx = s.ctx := by
  rcases withResponse_cases e s f with ⟨-, h⟩ | ⟨_, _, _, _, -, ⟨-, h⟩ | ⟨-, h⟩⟩ <;> rw [h]
  · rfl
  · rfl
  · exact hf _ _

/-- After a parser no transaction of its kind is open: there was none, or the parser closed it. -/
theorem parser_leaves_none_open (hbody : ∀ n sent r u, (body n sent r u).ctx = u.ctx) :
    ¬((parser k e body s).ctx.valid = true ∧ (parser k e body s).ctx.kind = k) := by
  by_cases h : s.ctx.valid = true ∧ s.ctx.kind = k
  · obtain ⟨hopen, hkind⟩ := h
    rw [parser_open hopen hkind, withResponse_ctx (hbody _ _)]
    exact fun hstill => nomatch hstill.1
  · rw [parser_noContext h]
    exact h

/-- The same parser again finds no context (R183). -/
theorem parser_parser (hbody : ∀ n sent r u, (body n sent r u).ctx = u.ctx) :
    parser k e body (parser k e body s) = (parser k e body s).startCommand.raise .noContext :=
  parser_noContext (parser_leaves_none_open hbody)

end Parser

theorem readBody_ctx (n : Byte) (sent r : List Byte) (s : State) : (readBody n sent r s).ctx = s.ctx := by
  unfold readBody readResponse
  split
  · rfl
  · split <;> rfl

theorem writeResponse_ctx (n : Byte) (sent r : List Byte) (s : State) : (writeResponse n sent r s).ctx = s.ctx := by
  simp only [writeResponse]
  split
  · rfl
  · split
    · rfl
    · split <;> rfl

/-! ### The last steps of each parser, after the header has passed -/

section LastSteps

variable {s : State} {b0 b2 lo hi : Byte} {data rest : List Byte}

/-- R172: the read data is not as long as the request asked for. -/
theorem exec_parseRead_length (hopen : s.ctx.valid = true) (hkind : s.ctx.kind = .read)
    (hin : s.inBytes = b0 :: wireRead :: b2 :: rest) (hlen : rest.length ≠ 2 * s.ctx.count.toNat + 2) :
    exec .parseRead s = .next { s with
      outBytes := [], outRegs := [], diagExpected := [], diagActual := [], status := ⟨4, 1, 0, 0⟩,
      result := BitVec.ofNat 16 (5 + 2 * s.ctx.count.toNat) ++ BitVec.ofNat 16 (3 + rest.length),
      ctx := { s.ctx with valid := false } } := by
  rw [exec_parseRead, parser_pass hopen hkind hin, readBody, readResponse_length _ hlen, setResultHi_setResultLo]
  rfl

/-- R173: the CRC is wrong, and `READ_CRC_CHECK` asks for it. -/
theorem exec_parseRead_crcMismatch (hopen : s.ctx.valid = true) (hkind : s.ctx.kind = .read)
    (hin : s.inBytes = b0 :: wireRead :: b2 :: (data ++ [lo, hi])) (hlen : data.length = 2 * s.ctx.count.toNat)
    (hcrc : Config.readCrcCheck = true ∧ crc16 (b0 :: wireRead :: b2 :: data) ≠ hi ++ lo) :
    exec .parseRead s = .next { s with
      outBytes := [], outRegs := [], diagExpected := [], diagActual := [], status := ⟨5, 1, 0, 0⟩,
      result := (hi ++ lo) ++ crc16 (b0 :: wireRead :: b2 :: data), ctx := { s.ctx with valid := false } } := by
  rw [exec_parseRead, parser_pass hopen hkind hin, readBody, readResponse_data _ hlen, if_pos hcrc]
  exact congrArg (fun u : State => Host.Outcome.next (u.raise .crcMismatch))
    (recordCrcs_append s.startCommand.closeCtx (b0 :: wireRead :: b2 :: data) lo hi)

/-- R174: the response is accepted. -/
theorem exec_parseRead_accepts (hopen : s.ctx.valid = true) (hkind : s.ctx.kind = .read)
    (hin : s.inBytes = b0 :: wireRead :: b2 :: (data ++ [lo, hi])) (hlen : data.length = 2 * s.ctx.count.toNat)
    (hcrc : Config.readCrcCheck = true → crc16 (b0 :: wireRead :: b2 :: data) = hi ++ lo) :
    exec .parseRead s = .next { s with
      outBytes := [], diagExpected := [], diagActual := [], status := ⟨0, 0, 0, 0⟩,
      outRegs := unpack data, result := BitVec.ofNat 32 s.ctx.count.toNat,
      ctx := { s.ctx with valid := false } } := by
  rw [exec_parseRead, parser_pass hopen hkind hin, readBody, readResponse_data _ hlen,
    if_neg (fun h => h.2 (hcrc h.1))]
  exact congrArg (fun u : State => Host.Outcome.next (u.setOutRegs (unpack data)).finish)
    (startCommand_setResultLo_count s.closeCtx s.ctx.count)

/-- What the last steps of `PARSE_READ` accept. -/
theorem readBody_ok {n : Byte} {sent : List Byte}
    (hok : (readBody n sent (b0 :: wireRead :: b2 :: rest) s).status.cls = 0) :
    ∃ data lo hi, rest = data ++ [lo, hi] ∧ data.length = 2 * n.toNat ∧
      (Config.readCrcCheck = true → crc16 (b0 :: wireRead :: b2 :: data) = hi ++ lo) := by
  by_cases hlen : rest.length = 2 * n.toNat + 2
  · obtain ⟨data, lo, hi, rfl⟩ := exists_trailing_bytes rest (by omega)
    have hdata : data.length = 2 * n.toNat := by simpa using hlen
    refine ⟨data, lo, hi, rfl, hdata, fun hcheck => Decidable.byContradiction fun hcrc => ?_⟩
    rw [readBody, readResponse_data s hdata, if_pos ⟨hcheck, hcrc⟩] at hok
    exact Reason.cls_code_ne_zero .crcMismatch hok
  · rw [readBody, readResponse_length s hlen] at hok
    exact absurd hok (Reason.cls_code_ne_zero .readDataLength)

/-- R179: the declared length is not that of the echoed payload. -/
theorem exec_parseWrite_length (hopen : s.ctx.valid = true) (hkind : s.ctx.kind = .write)
    (hin : s.inBytes = b0 :: wireWrite :: b2 :: rest) (hlen : rest.length ≠ b2.toNat + 2) :
    exec .parseWrite s = .next { s with
      outBytes := [], outRegs := [], diagExpected := [], diagActual := [], status := ⟨4, 2, 0, 0⟩,
      result := BitVec.ofNat 16 (5 + b2.toNat) ++ BitVec.ofNat 16 (3 + rest.length),
      ctx := { s.ctx with valid := false } } := by
  rw [exec_parseWrite, parser_pass hopen hkind hin, writeResponse_length _ hlen, setResultHi_setResultLo]
  rfl

/-- R180: the CRC is wrong. -/
theorem exec_parseWrite_crcMismatch (hopen : s.ctx.valid = true) (hkind : s.ctx.kind = .write)
    (hin : s.inBytes = b0 :: wireWrite :: b2 :: (data ++ [lo, hi])) (hlen : data.length = b2.toNat)
    (hcrc : crc16 (b0 :: wireWrite :: b2 :: data) ≠ hi ++ lo) :
    exec .parseWrite s = .next { s with
      outBytes := [], outRegs := [], diagExpected := [], diagActual := [], status := ⟨5, 1, 0, 0⟩,
      result := (hi ++ lo) ++ crc16 (b0 :: wireWrite :: b2 :: data), ctx := { s.ctx with valid := false } } := by
  rw [exec_parseWrite, parser_pass hopen hkind hin, writeResponse_data _ hlen, if_pos hcrc]
  exact congrArg (fun u : State => Host.Outcome.next (u.raise .crcMismatch))
    (recordCrcs_append s.startCommand.closeCtx (b0 :: wireWrite :: b2 :: data) lo hi)

/-- R181: the echoed payload is not the one sent. -/
theorem exec_parseWrite_payloadMismatch (hopen : s.ctx.valid = true) (hkind : s.ctx.kind = .write)
    (hin : s.inBytes = b0 :: wireWrite :: b2 :: (data ++ [lo, hi])) (hlen : data.length = b2.toNat)
    (hcrc : crc16 (b0 :: wireWrite :: b2 :: data) = hi ++ lo) (hsent : data ≠ s.ctx.payload) :
    exec .parseWrite s = .next { s with
      outBytes := [], outRegs := [], result := 0, status := ⟨5, 2, 0, 0⟩,
      diagExpected := s.ctx.payload, diagActual := data, ctx := { s.ctx with valid := false } } := by
  rw [exec_parseWrite, parser_pass hopen hkind hin, writeResponse_data _ hlen, if_neg (not_not_intro hcrc),
    if_pos hsent]
  rfl

/-- R182: the write is committed. -/
theorem exec_parseWrite_commits (hopen : s.ctx.valid = true) (hkind : s.ctx.kind = .write)
    (hin : s.inBytes = b0 :: wireWrite :: b2 :: (data ++ [lo, hi])) (hlen : data.length = b2.toNat)
    (hcrc : crc16 (b0 :: wireWrite :: b2 :: data) = hi ++ lo) (hsent : data = s.ctx.payload) :
    exec .parseWrite s = .next { s with
      outBytes := [], outRegs := [], diagExpected := [], diagActual := [], status := ⟨0, 0, 0, 0⟩,
      result := BitVec.ofNat 32 s.ctx.count.toNat, ctx := { s.ctx with valid := false } } := by
  rw [exec_parseWrite, parser_pass hopen hkind hin, writeResponse_data _ hlen, if_neg (not_not_intro hcrc),
    if_neg (not_not_intro hsent)]
  exact congrArg (fun u : State => Host.Outcome.next u.finish)
    (startCommand_setResultLo_count s.closeCtx s.ctx.count)

/-- What the last steps of `PARSE_WRITE` accept. -/
theorem writeResponse_ok {n : Byte} {sent : List Byte}
    (hok : (writeResponse n sent (b0 :: wireWrite :: b2 :: rest) s).status.cls = 0) :
    ∃ lo hi, rest = sent ++ [lo, hi] ∧ sent.length = b2.toNat ∧
      crc16 (b0 :: wireWrite :: b2 :: sent) = hi ++ lo := by
  by_cases hlen : rest.length = b2.toNat + 2
  · obtain ⟨actual, lo, hi, rfl⟩ := exists_trailing_bytes rest (by omega)
    have hactual : actual.length = b2.toNat := by simpa using hlen
    rw [writeResponse_data s hactual] at hok
    by_cases hcrc : crc16 (b0 :: wireWrite :: b2 :: actual) = hi ++ lo
    · rw [if_neg (not_not_intro hcrc)] at hok
      by_cases hsent : actual = sent
      · subst hsent
        exact ⟨lo, hi, rfl, hactual, hcrc⟩
      · rw [if_pos hsent] at hok
        exact absurd hok (Reason.cls_code_ne_zero .payloadMismatch)
    · rw [if_pos hcrc] at hok
      exact absurd hok (Reason.cls_code_ne_zero .crcMismatch)
  · rw [writeResponse_length s hlen] at hok
    exact absurd hok (Reason.cls_code_ne_zero .writeDeclaredLength)

end LastSteps

end Sys2Proof.Machine

section
open Sys2Proof Sys2Proof.Machine

/-- Settles O38: the checks both parsers start with, the length, and the data with or without the CRC check. -/
theorem parseReadChecksInOrder : Obligations.ParseReadChecksInOrder := by
  refine ⟨fun _ hop => decode_of_op rfl rfl hop, fun s hclosed => ?_, fun s hopen hkind hshort => ?_,
    fun s b0 b1 b2 rest hopen hkind hin => ⟨fun hecho => ?_, ?_, ?_⟩⟩
  · exact congrArg Host.Outcome.next (parser_noContext hclosed)
  · exact congrArg Host.Outcome.next (parser_short hopen hkind hshort)
  · exact congrArg Host.Outcome.next (parser_echo hopen hkind hin hecho)
  · rintro rfl - hlen
    exact exec_parseRead_length hopen hkind hin hlen
  · rintro data lo hi rfl rfl hlen
    split
    · exact exec_parseRead_crcMismatch hopen hkind hin hlen ‹_›
    · exact exec_parseRead_accepts hopen hkind hin hlen (Decidable.not_and_not_right.1 ‹_›)

/-- Settles O39: the checks both parsers start with, the declared length, the CRC and the payload. -/
theorem parseWriteChecksInOrder : Obligations.ParseWriteChecksInOrder := by
  refine ⟨fun _ hop => decode_of_op rfl rfl hop, fun s hclosed => ?_, fun s hopen hkind hshort => ?_,
    fun s b0 b1 b2 rest hopen hkind hin => ⟨fun hecho => ?_, ?_, ?_⟩⟩
  · exact congrArg Host.Outcome.next (parser_noContext hclosed)
  · exact congrArg Host.Outcome.next (parser_short hopen hkind hshort)
  · exact congrArg Host.Outcome.next (parser_echo hopen hkind hin hecho)
  · rintro rfl - hlen
    exact exec_parseWrite_length hopen hkind hin hlen
  · rintro actual lo hi rfl rfl hlen
    exact ⟨exec_parseWrite_crcMismatch hopen hkind hin hlen, exec_parseWrite_payloadMismatch hopen hkind hin hlen,
      exec_parseWrite_commits hopen hkind hin hlen⟩

/-- Settles O40: after a parser no transaction of its kind is open, so the same parser raises `NO_CONTEXT`. -/
theorem secondParseFindsNoContext : Obligations.SecondParseFindsNoContext := by
  rintro i s t u (rfl | rfl) ht hu
  · cases ht
    cases hu.symm.trans (congrArg Host.Outcome.next (parser_parser readBody_ctx))
    exact ⟨rfl, rfl⟩
  · cases ht
    cases hu.symm.trans (congrArg Host.Outcome.next (parser_parser writeResponse_ctx))
    exact ⟨rfl, rfl⟩

/-- Settles O41: a build that raises has closed `CTX`, and a parser of either kind then raises `NO_CONTEXT`. -/
theorem failedBuildClosesTheTransaction : Obligations.FailedBuildClosesTheTransaction := by
  intro i j s t u hi hj ht hfail hu
  have hbuilder : i.isBuilder = true := by
    rcases hi with ⟨_, _, _, _, _, rfl⟩ | ⟨_, _, _, _, rfl⟩ <;> rfl
  have hclosed : t.ctx.valid = false := (ends_of_exec ht).closed_by_failed_build hbuilder hfail
  have hnone (k : TxKind) : ¬(t.ctx.valid = true ∧ t.ctx.kind = k) := by simp [hclosed]
  refine ⟨hclosed, ?_⟩
  rcases hj with rfl | rfl
  · cases hu.symm.trans (congrArg Host.Outcome.next (parser_noContext (hnone .read)))
    rfl
  · cases hu.symm.trans (congrArg Host.Outcome.next (parser_noContext (hnone .write)))
    rfl

end

/-! ## Exactly which responses are accepted, and whole transactions -/

namespace Sys2Proof.Machine

theorem step_writeCmd {s : State} {w : CmdWord} {i : Instr} {rest : List HostAction}
    (hpending : s.pending = .writeCmd w :: rest) (hdecode : decode w = .ok i) :
    step s = exec i { s with cmd := w, pending := rest } :=
  (step_action hpending).trans (runCommand_of_decode hdecode _)

theorem step_writeBytes {s : State} {b : List Byte} {rest : List HostAction}
    (hpending : s.pending = .writeBytes b :: rest) (hfit : b.length ≤ Config.byteBufCap) :
    step s = .next { s with pending := rest, inBytes := b } :=
  (step_action hpending).trans (if_pos hfit)

theorem step_writeRegs {s : State} {r : List Reg} {rest : List HostAction}
    (hpending : s.pending = .writeRegs r :: rest) (hfit : r.length ≤ Config.regBufCap) :
    step s = .next { s with pending := rest, inRegs := r } :=
  (step_action hpending).trans (if_pos hfit)

/-- The three steps both transactions share: one command, a write of `IN_BYTES`, a second command. -/
theorem run_exchange {s t u : State} {w v : CmdWord} {i j : Instr} {r : List Byte} {later : List HostAction}
    (hpending : s.pending = .writeCmd w :: .writeBytes r :: .writeCmd v :: later)
    (hw : decode w = .ok i) (hv : decode v = .ok j) (hfit : r.length ≤ Config.byteBufCap)
    (hfirst : exec i { s with cmd := w, pending := .writeBytes r :: .writeCmd v :: later } = .next t)
    (hsecond : exec j { t with cmd := v, inBytes := r, pending := later } = .next u) :
    Host.Core.run core 3 s = .next u := by
  have hqueue : t.pending = .writeBytes r :: .writeCmd v :: later := (ends_of_exec hfirst).host_side.2.1
  have hstep : step s = .next t := (step_writeCmd hpending hw).trans hfirst
  have hwrite := step_writeBytes hqueue hfit
  rw [run_succ hstep, run_succ hwrite, run_succ ((step_writeCmd rfl hv).trans hsecond)]
  rfl

/-- A response of at most `MAX_READ_COUNT` registers fits `IN_BYTES` (R27). -/
theorem response_fits {rs : List Reg} (hmax : rs.length ≤ Config.maxReadCount) (b0 b1 b2 : Byte) :
    (withCrc (b0 :: b1 :: b2 :: pack rs)).length ≤ Config.byteBufCap := by
  have hcap : 258 ≤ Config.regBufCap := Config.regBufCap_allowed.1
  have hbytes : Config.byteBufCap = 2 * Config.regBufCap := Config.byteBufCap_eq
  simp only [Config.maxReadCount] at hmax
  simp only [length_withCrc, List.length_cons, length_pack]
  omega

/-- A number below 256 in a byte. -/
theorem toNat_byte {n : Nat} (h : n < 256) : (BitVec.ofNat 8 n).toNat = n :=
  (BitVec.toNat_ofNat n 8).trans (Nat.mod_eq_of_lt h)

/-- `STATUS` reads 0 after an OK with no transaction open (R25). -/
theorem statusWord_eq_zero {s : State} (hok : s.status = ⟨0, 0, 0, 0⟩) (hclosed : s.ctx.valid = false) :
    statusWord s = 0 := by
  simp [statusWord, ctxKindBit, ctxValidBit, hok, hclosed]

end Sys2Proof.Machine

section
open Sys2Proof Sys2Proof.Machine

/-- Settles O42: what the checks let pass is a response of that form (its data is `pack` of its `unpack`), and a
response of that form passes them. -/
theorem readAcceptedExactlyWhenWellFramed : Obligations.ReadAcceptedExactlyWhenWellFramed := by
  intro s t hopen hkind ht
  constructor
  · intro hok
    have hparser : parser .read wireRead readBody s = t := Host.Outcome.next.inj ht
    rw [← hparser] at hok
    obtain ⟨b0, b2, rest, hin, hbody⟩ := (parser_ok_iff hopen hkind).1 hok
    obtain ⟨data, lo, hi, rfl, hlen, hcrc⟩ := readBody_ok hbody
    have heven : data.length % 2 = 0 := by omega
    cases ht.symm.trans (exec_parseRead_accepts hopen hkind hin hlen hcrc)
    refine ⟨b0, b2, lo, hi, unpack data, ?_, ?_, rfl, ?_⟩
    · rw [pack_unpack heven]
      exact hin
    · rw [length_unpack]
      omega
    · rw [pack_unpack heven]
      exact hcrc
  · rintro ⟨b0, b2, lo, hi, rs, hin, hlen, -, hcrc⟩
    have hdata : (pack rs).length = 2 * s.ctx.count.toNat := by rw [length_pack, hlen]
    cases ht.symm.trans (exec_parseRead_accepts hopen hkind hin hdata hcrc)
    rfl

/-- Settles O43: what the checks let pass is that frame, and that frame passes them; the invariant makes the payload's
length fit its byte. -/
theorem writeCommittedExactlyWhenEchoed : Obligations.WriteCommittedExactlyWhenEchoed := by
  intro s t hinv hopen hkind ht
  constructor
  · intro hok
    have hparser : parser .write wireWrite writeResponse s = t := Host.Outcome.next.inj ht
    rw [← hparser] at hok
    obtain ⟨b0, b2, rest, hin, hbody⟩ := (parser_ok_iff hopen hkind).1 hok
    obtain ⟨lo, hi, rfl, hlen, hcrc⟩ := writeResponse_ok hbody
    obtain rfl : BitVec.ofNat 8 s.ctx.payload.length = b2 := by rw [hlen, BitVec.ofNat_toNat, BitVec.setWidth_eq]
    refine ⟨b0, hin.trans ?_⟩
    have htrail := crcBytes_append hi lo
    rw [← hcrc] at htrail
    exact congrArg (b0 :: wireWrite :: _ :: s.ctx.payload ++ ·) htrail.symm
  · rintro ⟨b0, hin⟩
    have hfit : s.ctx.payload.length ≤ 254 := hinv.ctx_shape.length_payload hkind
    have hlen : s.ctx.payload.length = (BitVec.ofNat 8 s.ctx.payload.length).toNat :=
      (toNat_byte (by omega)).symm
    cases ht.symm.trans (exec_parseWrite_commits hopen hkind hin hlen (append_high_low _).symm rfl)
    rfl

/-- Settles O44: the build opens a read of `n` registers, and the response is one that it accepts. -/
theorem readTransactionReturnsTheRegisters : Obligations.ReadTransactionReturnsTheRegisters := by
  rintro s w a c i p n b0 b2 rs _ later hdecode hcat hcount hlen rfl hpending
  have hn : rs.length ≤ 255 := by
    rw [hlen]
    exact Nat.le_of_lt_succ n.isLt
  have hdata : (pack rs).length = 2 * n.toNat := by rw [length_pack, hlen]
  refine ⟨_, run_exchange hpending hdecode rfl (response_fits hn _ _ _) (exec_buildRead hcat hcount a i p _)
    (exec_parseRead_accepts rfl rfl rfl hdata fun _ => (append_high_low _).symm), ?_⟩
  exact ⟨statusWord_eq_zero rfl rfl, unpack_pack rs, rfl, rfl, rfl, rfl, rfl⟩

/-- Settles O45: the build opens a write of the registers just put into `IN_REGS`, and the echo commits it. -/
theorem writeTransactionCommits : Obligations.WriteTransactionCommits := by
  rintro s w a c i p b0 rs _ later hdecode hcat hpos hmax rfl hpending
  have hregs : rs.length ≤ Config.regBufCap := Nat.le_trans hmax (by decide)
  have hcount : (BitVec.ofNat 8 rs.length).toNat = rs.length := toNat_byte (by omega)
  have hdeclared : (pack rs).length = (BitVec.ofNat 8 (2 * rs.length)).toNat := by
    rw [length_pack, toNat_byte (by omega)]
  refine ⟨_, (run_succ (step_writeRegs hpending hregs) 3).trans (run_exchange rfl hdecode rfl
    (response_fits (Nat.le_trans hmax (by decide)) _ _ _) (exec_buildWrite hcat hpos hmax a i p)
    (exec_parseWrite_commits rfl rfl rfl hdeclared (append_high_low _).symm rfl)), ?_⟩
  exact ⟨statusWord_eq_zero rfl rfl, congrArg (BitVec.ofNat 32) hcount, rfl, rfl, rfl, rfl, rfl⟩

end

/-! ## The control rules (43_control.md R210 to R213) -/

namespace Sys2Proof.Machine

/-- What the illegal command leaves (R212): the cleared outputs of R211 and ValidationError `ILLEGAL_OP`. -/
theorem execIllegal_eq (s : State) : execIllegal s = .next { s with
    outBytes := [], outRegs := [], diagExpected := [], diagActual := [], result := 0, status := ⟨1, 1, 0, 0⟩ } := rfl

/-- A word whose `OP` is no command's opcode runs the illegal command. -/
theorem runCommand_of_no_opcode {w : CmdWord} (hop : ∀ i, cmdOp w ≠ opcode i) (s : State) :
    runCommand w s = execIllegal { s with cmd := w } :=
  runCommand_of_error ((decode_eq_error_iff w).2 hop) s

/-- What `CLEAR` leaves (R213): the reset state, with the latched `CMD` and the host's side kept. -/
theorem exec_clear (s : State) : exec .clear s = .next { State.reset with
    cmd := s.cmd, pending := s.pending, reads := s.reads } := rfl

end Sys2Proof.Machine

section
open Sys2Proof Sys2Proof.Machine

/-- Settles O5: the step is the host's action on the shorter queue, and for a word that decodes that action is `exec`;
`wf` is not needed. -/
theorem stepRunsTheDecodedCommand : Obligations.StepRunsTheDecodedCommand :=
  fun _ _ _ hpending => ⟨step_action hpending, fun _ hdecode _ => step_writeCmd hpending hdecode⟩

/-- Settles O6: the listed bytes are the opcodes, so the decoder rejects the word and the illegal command runs. -/
theorem illegalCommandReportsIllegalOp : Obligations.IllegalCommandReportsIllegalOp := by
  intro s w hnotlisted
  have hop : ∀ i, cmdOp w ≠ opcode i := not_exists.1 (mt (exists_opcode_eq_iff _).1 hnotlisted)
  rw [runCommand_of_no_opcode hop, execIllegal_eq]

/-- Settles O46: `OP` alone selects `CLEAR`, and the values it leaves are those of `State.reset`. -/
theorem clearRestoresAllButCmd : Obligations.ClearRestoresAllButCmd :=
  ⟨fun _ hop => decode_of_op rfl rfl hop, exec_clear⟩

/-- Settles O47: `exec_ends` names the next state of every command. -/
theorem everyCommandCompletes : Obligations.EveryCommandCompletes := by
  intro i s
  obtain ⟨t, hnext, -⟩ := exec_ends i s
  exact ⟨t, hnext⟩

end

/-! ## Errors (60_exceptions.md R222, R226) -/

namespace Sys2Proof

/-- The commands that can report an error: every one but the eight of 60_exceptions.md R222. -/
def Instr.mayRaise (i : Instr) : Bool :=
  i == .crcVerify || i == .unpack || i.isBuilder || i.isParser

end Sys2Proof

namespace Sys2Proof.Machine

theorem Raises.mayRaise {i : Instr} {r : Reason} {s u : State} (h : Raises s i r u) : i.mayRaise = true := by
  cases h with
  | build hi | noContext hi | response _ hi | echoMismatch _ _ hi => simp [Instr.mayRaise, hi]
  | shortInput | verifyMismatch | oddLength | payloadMismatch => rfl

/-- Each way to raise writes at most the report and `CTX`, on outputs already cleared. -/
theorem Raises.changes_only_report_and_ctx {i : Instr} {r : Reason} {s u : State} (h : Raises s i r u) :
    u = { s with
      outBytes := [], outRegs := [], diagExpected := u.diagExpected, diagActual := u.diagActual, result := u.result,
      status := u.status, ctx := u.ctx } := by
  cases h <;> rfl

/-- A command whose outcome is not OK has raised a reason. -/
theorem Ends.raises_of_failure {i : Instr} {s t : State} (h : Ends s i t) (hfail : t.status.cls ≠ 0) :
    ∃ r u, Raises s i r u ∧ t = u.raise r := by
  cases h with
  | finish => exact absurd rfl hfail
  | raise h => exact ⟨_, _, h, rfl⟩

theorem Ends.ok_of_not_mayRaise {i : Instr} {s t : State} (h : Ends s i t) (hi : i.mayRaise = false) :
    t.status = ⟨0, 0, 0, 0⟩ := by
  cases h with
  | finish => rfl
  | raise h => exact absurd h.mayRaise (by simp [hi])

end Sys2Proof.Machine

section
open Sys2Proof Sys2Proof.Machine

/-- Settles O51: a failed command has raised; what it wrote before is listed by `Raises`, and `raise` itself writes only
`STATUS`. -/
theorem errorsArePrecise : Obligations.ErrorsArePrecise := by
  intro i s t h hfail
  obtain ⟨r, u, hraises, rfl⟩ := (ends_of_exec h).raises_of_failure hfail
  exact ⟨congrArg (State.raise · r) hraises.changes_only_report_and_ctx, hraises.ctx_kept_or_closed⟩

/-- Settles O52: none of the eight commands can raise, so each ends with `finish`. -/
theorem eightCommandsRaiseNoError : Obligations.EightCommandsRaiseNoError := by
  intro i s t hi h
  have hnever : i.mayRaise = false := by
    rcases hi with hlisted | ⟨n, rfl⟩ | ⟨n, rfl⟩
    · clear h
      revert i
      decide
    · rfl
    · rfl
  exact (ends_of_exec h).ok_of_not_mayRaise hnever

end
